-- ==== Sys2Proof/Word.lean ====
section
/-! DEFINITION. The word types of the UJ-340: bytes, the 16-bit, 32-bit and 48-bit values that the
spec carries as bits, and the plainest arithmetic on them. Link time and every stamp wrap modulo
2^32 (spec/00_scope.md, Conventions), so they are bit vectors. -/

namespace Sys2Proof

/-- One byte of the ring link or of the cabinet port. -/
abbrev Byte := BitVec 8

/-- A 16-bit value: a check, a heading, an appearance code, a roll or attention field. -/
abbrev Half := BitVec 16

/-- A count of microseconds: link time, race time, a stamp (R38, R42). -/
abbrev Micros := BitVec 32

/-- A factory serial, 48 bits (R27). -/
abbrev Serial := BitVec 48

/-- The signed 32-bit difference by which link times are compared (Conventions). -/
def signedDiff (a b : Micros) : Int := (a - b).toInt

/-- The largest race time, 4,294,967,295 µs (R42). -/
def topMicros : Nat := 4294967295

end Sys2Proof
end

