-- ==== Sys2Proof/Syntax.lean ====
section
/-! DEFINITION. The commands of the UJ-340: one constructor of `Instr` for each row of
spec/opcode_table.json, in the table's order, with the operands that the row's rule gives it.
Frames reach the part as symbols (R1), so a frame command carries the symbols received. -/

namespace Sys2Proof

/-- One place of a frame as received: a data byte, or a code error in its place (R1). R4 says nothing of a FILL
symbol between a frame's START and END, and here none stands there (notes/assumptions/66.md). -/
inductive RxSym where
  | data (b : Byte)
  | codeError
deriving DecidableEq, Repr, Inhabited

/-- The two kinds of frame, given by the START symbol (R1, R4). -/
inductive FrameKind where
  | cycle
  | collect
deriving DecidableEq, Repr, Inhabited

/-- A symbol heard between frames: a FILL symbol, a code error, or any other valid symbol (R2). -/
inductive GapSymbol where
  | fill
  | codeError
  | other
deriving DecidableEq, Repr, Inhabited

/-- A frame in progress that an event ends before its END: its symbols so far, and how many bytes of the
anchor's own frame had gone out when its header was complete, if the station is an anchor that was emitting
(R2, R4, R16, R20). -/
structure CutFrame where
  kind : FrameKind
  symbols : List RxSym
  sent : Option Nat
deriving DecidableEq, Repr, Inhabited

/-- What a Standby carries: whether the length of its command frame suits it, and the frame in progress that it
ends (R20, R163). -/
structure StandbyArgs where
  fits : Bool
  cut : Option CutFrame
deriving DecidableEq, Repr, Inhabited

/-- The symbols that bring the run of code errors to its limit: those of the gap between two frames, one by
one, or the last of a frame in progress (R2). -/
inductive ErrorRun where
  | between (gap : List GapSymbol)
  | inside (cut : CutFrame)
deriving DecidableEq, Repr, Inhabited

/-- What ended a received frame: its END symbol, or a START inside it (R4). A frame ended by the
receiver going DOWN is an operand of LOSS_OF_SIGNAL and ERROR_RUN_LIMIT, and one ended by Standby of
STANDBY. -/
inductive FrameEnd where
  | endSymbol
  | startInside
deriving DecidableEq, Repr, Inhabited

/-- A frame as received: the symbols between START and its end, what ended it, and whether the
whole microseconds from the START capture to the taking of the header are 26 rather than 25
(the `e` of R40, which is one of the two). -/
structure RxFrame where
  symbols : List RxSym
  ending : FrameEnd
  slowHeader : Bool
deriving DecidableEq, Repr, Inhabited

/-- The message classes (R57). -/
inductive MsgClass where
  | urgent
  | normal
deriving DecidableEq, Repr, Inhabited

/-- A table named by a Table Write or Table Read (R173, R174). -/
inductive TableName where
  | settings
  | raceSetup
  | grid
  | unknown (code : Nat)
deriving DecidableEq, Repr, Inhabited

/-- The part selector of the Status command (R168). -/
inductive StatusPart where
  | link
  | survey
  | time
  | slots
  | race
  | car (c : Nat)
  | seats
  | ownReports
  | replica (c : Nat)
  | bulk
  | port
  | settings
  | unknown (code : Nat)
deriving DecidableEq, Repr, Inhabited

/-- The car argument of Admit: a car number, or "any" (R100). -/
inductive CarChoice where
  | any
  | car (c : Nat)
deriving DecidableEq, Repr, Inhabited

/-- A set of protection groups (R175). -/
structure Groups where
  roll : Bool
  posting : Bool
  presentation : Bool
deriving DecidableEq, Repr, Inhabited

/-- The arguments of a Car Report (R114): positions and velocities as signed 32-bit numbers. -/
structure CarReportArgs where
  x : Int
  y : Int
  z : Int
  vx : Int
  vy : Int
  vz : Int
  heading : Half
  yaw : Int
  laps : Nat
  crossing : Micros
  appearance : Half
deriving DecidableEq, Repr, Inhabited

/-- The commands of the block. The commands of the cabinet port carry `fits`: whether the length of
the command frame suits the command (R163), and then their arguments. -/
inductive Instr where
  /-- POWER_RESET (R179) -/
  | powerReset
  /-- LOSS_OF_SIGNAL (R2); `cut` is the frame in progress that it ends (R4) -/
  | lossOfSignal (cut : Option CutFrame)
  /-- FILL_RUN_LIMIT (R2) -/
  | fillRunLimit
  /-- ERROR_RUN_LIMIT (R2); `run` is the symbols heard, the oldest first (R4) -/
  | errorRunLimit (run : ErrorRun)
  /-- NODE_CYCLE_FRAME (R6) -/
  | nodeCycleFrame (f : RxFrame)
  /-- SILENCE_LIMIT (R10) -/
  | silenceLimit
  /-- CYCLE_BOUNDARY (R13) -/
  | cycleBoundary
  /-- RETURN_MISS_LIMIT (R14) -/
  | returnMissLimit
  /-- CYCLE_RETURN (R14) -/
  | cycleReturn (f : RxFrame)
  /-- FOREIGN_FRAME (R16); `sent` is how many bytes of the anchor's own frame had gone out when
  the header of the foreign frame was complete, if the anchor was emitting -/
  | foreignFrame (kind : FrameKind) (f : RxFrame) (sent : Option Nat)
  /-- NODE_COLLECT_FRAME (R28) -/
  | nodeCollectFrame (f : RxFrame)
  /-- COLLECT_RETURN (R30); `roundTrip` is the time measured in units of 100 ns (R29) -/
  | collectReturn (f : RxFrame) (roundTrip : Nat)
  /-- LINK_WAIT_END (R38) -/
  | linkWaitEnd
  /-- RACE_WAIT_END (R38) -/
  | raceWaitEnd
  /-- RACE_TIME_TOP (R42) -/
  | raceTimeTop
  /-- GO_FIRE (R48) -/
  | goFire
  /-- GO_PULSE_END (R50) -/
  | goPulseEnd
  /-- FIELD_EDGE (R54); `lowMicros` is how long FIELD had been low, in µs (R179) -/
  | fieldEdge (lowMicros : Nat)
  /-- FIELD_COMPUTATION_END (R127) -/
  | fieldComputationEnd
  /-- OUTSTANDING_WAIT_LIMIT (R73) -/
  | outstandingWaitLimit
  /-- CLAIM_AGE_LIMIT (R67) -/
  | claimAgeLimit
  /-- CLOSE_DEADLINE (R146) -/
  | closeDeadline
  /-- LOST_CAR_LIMIT (R93), of one car -/
  | lostCarLimit (car : Nat)
  /-- REFERRAL_TIMEOUT (R101) -/
  | referralTimeout
  /-- RECEIVE_IDLE_LIMIT (R161), of one receive entry -/
  | receiveIdleLimit (entry : Nat)
  /-- COMMAND_BYTE_WRITE (R165) -/
  | commandByteWrite (b : Byte)
  /-- REPORT_BYTE_READ (R179) -/
  | reportByteRead
  /-- EMPTY_FRAME (R163) -/
  | emptyFrame
  /-- DAMAGED_FRAME (R165) -/
  | damagedFrame
  /-- UNKNOWN_COMMAND (R163) -/
  | unknownCommand (code : Byte)
  /-- REPLY_PLACED (R164) -/
  | replyPlaced
  /-- REPORT_PENDING_PLACED (R74) -/
  | reportPendingPlaced
  /-- NOTICE_PLACED (R167) -/
  | noticePlaced
  /-- LOCK_CHANGE (R175) -/
  | lockChange (asserted : Bool)
  /-- CONFIGURE (R169) -/
  | configure (fits : Bool) (address role seatCount : Nat) (title revision : Half)
  /-- RESTART (R170) -/
  | restart (fits : Bool)
  /-- STANDBY (R20) -/
  | standby (args : StandbyArgs)
  /-- RESUME_RING (R21) -/
  | resumeRing (fits : Bool)
  /-- STATUS (R168) -/
  | status (fits : Bool) (part : StatusPart)
  /-- SURVEY (R25) -/
  | survey (fits : Bool)
  /-- OPEN_GATHERING (R80) -/
  | openGathering (fits : Bool)
  /-- CLOSE_GATHERING (R80) -/
  | closeGathering (fits : Bool)
  /-- START_RACE (R46); the lead is in ms -/
  | startRace (fits : Bool) (lead : Nat)
  /-- ABORT_RACE (R82) -/
  | abortRace (fits : Bool)
  /-- HOLD (R85) -/
  | hold (fits : Bool)
  /-- RESUME (R85) -/
  | resume (fits : Bool)
  /-- CLEAR_RACE (R83) -/
  | clearRace (fits : Bool)
  /-- RACE_SETUP_WRITE (R89) -/
  | raceSetupWrite (fits : Bool) (start : Nat) (values : List Nat)
  /-- RACE_SETUP_READ (R89) -/
  | raceSetupRead (fits : Bool) (start count : Nat)
  /-- GRID_WRITE (R90) -/
  | gridWrite (fits : Bool) (start : Nat) (values : List Nat)
  /-- GRID_READ (R90) -/
  | gridRead (fits : Bool) (start count : Nat)
  /-- POLL (R111) -/
  | poll (fits : Bool) (station : Nat)
  /-- CLEAR_STATIONS (R112) -/
  | clearStations (fits : Bool)
  /-- ADMIT (R100) -/
  | admitCar (fits : Bool) (choice : CarChoice)
  /-- REFUSE (R100) -/
  | refuse (fits : Bool)
  /-- JOIN (R96) -/
  | join (fits : Bool) (seat : Nat) (tag : List Byte)
  /-- LEAVE (R105) -/
  | leave (fits : Bool) (seat : Nat)
  /-- SET_READY (R107) -/
  | setReady (fits : Bool) (value : Nat)
  /-- REQUEST_ATTENTION (R109) -/
  | requestAttention (fits : Bool) (code : Nat)
  /-- WITHDRAW_ATTENTION (R109) -/
  | withdrawAttention (fits : Bool)
  /-- LOCAL_TRIGGER (R53) -/
  | localTrigger (fits : Bool)
  /-- CAR_REPORT (R114) -/
  | carReport (fits : Bool) (seat : Nat) (args : CarReportArgs)
  /-- GAME (R171); the class is none when it is unknown -/
  | game (fits : Bool) (dest : Nat) (cls : Option MsgClass) (tag : Nat) (payload : List Byte)
  /-- BULK_OPEN (R152) -/
  | bulkOpen (fits : Bool) (channel peer total : Nat) (optEnd optEach : Bool)
  /-- BULK_DATA (R153) -/
  | bulkData (fits : Bool) (channel : Nat) (bytes : List Byte)
  /-- BULK_ABORT (R156) -/
  | bulkAbort (fits : Bool) (channel : Nat)
  /-- TABLE_WRITE (R173), the local form -/
  | tableWrite (fits : Bool) (table : TableName) (start : Nat) (values : List Nat)
  /-- TABLE_READ (R173), the local form -/
  | tableRead (fits : Bool) (table : TableName) (start count : Nat)
  /-- REMOTE_TABLE_WRITE (R174) -/
  | remoteTableWrite (fits : Bool) (station : Nat) (table : TableName) (start : Nat) (values : List Nat)
  /-- REMOTE_TABLE_READ (R174) -/
  | remoteTableRead (fits : Bool) (station : Nat) (table : TableName) (start count : Nat)
  /-- PROTECT_ON (R175) -/
  | protectOn (fits : Bool)
  /-- PROTECT_OFF (R175) -/
  | protectOff (fits : Bool)
  /-- PROTECTION_LIST_WRITE (R175); `unknown` when the frame names a group that is none of the three -/
  | protectionListWrite (fits : Bool) (groups : Groups) (unknown : Bool)
deriving DecidableEq, Repr, Inhabited

end Sys2Proof
end

