-- ==== Sys2Proof/WellFormed.lean ====
section
/-! DEFINITION. The well-formed commands: operands within what the rule of the row lets the command carry. The
ranges that a command's own tests judge (R163's refusals) are not checked here: only what the frame of the
command, or the event, can carry at all. -/

namespace Sys2Proof

/-- A number that one byte of a command frame carries. -/
def oneByte (v : Nat) : Bool := decide (v < 256)

/-- A number that two bytes of a command frame carry (R176). -/
def twoBytes (v : Nat) : Bool := decide (v < 65536)

/-- A signed number that four bytes of a command frame carry (R114, R176). -/
def signedFour (v : Int) : Bool := decide (-2147483648 ≤ v) && decide (v < 2147483648)

/-- A signed number that two bytes of a command frame carry (R114, R176). -/
def signedTwo (v : Int) : Bool := decide (-32768 ≤ v) && decide (v < 32768)

/-- The values of a table write: 16-bit numbers, no more than a frame of 255 bytes after its length byte holds
(R163, R173). -/
def tableValues (vs : List Nat) : Bool := decide (vs.length ≤ 127) && vs.all twoBytes

/-- The bytes that a command frame carries at most (R163). -/
def frameBytes (b : List Byte) : Bool := decide (b.length ≤ 254)

/-- A table name: a code that names none is one byte, and none of the three that the model gives the tables
(notes/assumptions/17.md). -/
def TableName.fits : TableName → Bool
  | .settings => true
  | .raceSetup => true
  | .grid => true
  | .unknown c => decide (3 ≤ c) && oneByte c

/-- A Status part: its car number or unknown code is one byte (R168). -/
def StatusPart.fits : StatusPart → Bool
  | .car c => oneByte c
  | .replica c => oneByte c
  | .unknown c => oneByte c
  | .link => true
  | .survey => true
  | .time => true
  | .slots => true
  | .race => true
  | .seats => true
  | .ownReports => true
  | .bulk => true
  | .port => true
  | .settings => true

/-- The car argument of Admit is one byte (R100). -/
def CarChoice.fits : CarChoice → Bool
  | .any => true
  | .car c => oneByte c

/-- The arguments of a Car Report lie in the fields of its frame (R114). -/
def CarReportArgs.fits (a : CarReportArgs) : Bool :=
  signedFour a.x && signedFour a.y && signedFour a.z && signedFour a.vx && signedFour a.vy &&
    signedFour a.vz && signedTwo a.yaw && oneByte a.laps

/-- The bytes of the anchor's own frame that can have gone out (R4, R16). -/
def sentBytes : Option Nat → Bool
  | none => true
  | some n => decide (n ≤ 608)

/-- A frame in progress (R16). -/
def CutFrame.fits (c : CutFrame) : Bool := sentBytes c.sent

/-- A frame in progress, if there is one. -/
def cutFits : Option CutFrame → Bool
  | none => true
  | some c => c.fits

/-- The symbols of a run of code errors. -/
def ErrorRun.fits : ErrorRun → Bool
  | .between _ => true
  | .inside c => c.fits

/-- A command is well formed. -/
def Instr.wellFormed : Instr → Bool
  | .powerReset => true
  | .lossOfSignal cut => cutFits cut
  | .fillRunLimit => true
  | .errorRunLimit run => run.fits
  | .nodeCycleFrame _ => true
  | .silenceLimit => true
  | .cycleBoundary => true
  | .returnMissLimit => true
  | .cycleReturn _ => true
  | .foreignFrame _ _ sent => sentBytes sent
  | .nodeCollectFrame _ => true
  | .collectReturn _ roundTrip => decide (roundTrip ≤ 65535)
  | .linkWaitEnd => true
  | .raceWaitEnd => true
  | .raceTimeTop => true
  | .goFire => true
  | .goPulseEnd => true
  | .fieldEdge _ => true
  | .fieldComputationEnd => true
  | .outstandingWaitLimit => true
  | .claimAgeLimit => true
  | .closeDeadline => true
  | .lostCarLimit car => decide (car < 8)
  | .referralTimeout => true
  | .receiveIdleLimit entry => decide (entry < 4)
  | .commandByteWrite _ => true
  | .reportByteRead => true
  | .emptyFrame => true
  | .damagedFrame => true
  | .unknownCommand _ => true
  | .replyPlaced => true
  | .reportPendingPlaced => true
  | .noticePlaced => true
  | .lockChange _ => true
  | .configure _ address role seats _ _ => oneByte address && oneByte role && oneByte seats
  | .restart _ => true
  | .standby args => cutFits args.cut
  | .resumeRing _ => true
  | .status _ part => part.fits
  | .survey _ => true
  | .openGathering _ => true
  | .closeGathering _ => true
  | .startRace _ lead => twoBytes lead
  | .abortRace _ => true
  | .hold _ => true
  | .resume _ => true
  | .clearRace _ => true
  | .raceSetupWrite _ start values => oneByte start && tableValues values
  | .raceSetupRead _ start count => oneByte start && oneByte count
  | .gridWrite _ start values => oneByte start && tableValues values
  | .gridRead _ start count => oneByte start && oneByte count
  | .poll _ station => oneByte station
  | .clearStations _ => true
  | .admitCar _ choice => choice.fits
  | .refuse _ => true
  | .join _ seat tag => oneByte seat && decide (tag.length = 3)
  | .leave _ seat => oneByte seat
  | .setReady _ value => oneByte value
  | .requestAttention _ code => oneByte code
  | .withdrawAttention _ => true
  | .localTrigger _ => true
  | .carReport _ seat args => oneByte seat && args.fits
  | .game _ dest _ tag payload => oneByte dest && oneByte tag && frameBytes payload
  | .bulkOpen _ channel peer total _ _ => oneByte channel && oneByte peer && twoBytes total
  | .bulkData _ channel bytes => oneByte channel && frameBytes bytes
  | .bulkAbort _ channel => oneByte channel
  | .tableWrite _ table start values => table.fits && oneByte start && tableValues values
  | .tableRead _ table start count => table.fits && oneByte start && oneByte count
  | .remoteTableWrite _ station table start values =>
    oneByte station && table.fits && oneByte start && tableValues values
  | .remoteTableRead _ station table start count =>
    oneByte station && table.fits && oneByte start && oneByte count
  | .protectOn _ => true
  | .protectOff _ => true
  | .protectionListWrite _ _ _ => true

end Sys2Proof
end

