-- ==== Sys2Proof/Config.lean ====
section
/-! DEFINITION. What an implementation fixes and the spec leaves open: constants with no body, so
that no proof can see their values, and the numbers that the spec states for every part. -/

namespace Sys2Proof

/-- The factory serial "fixed in the part" (R27, settings entries 17 to 19 of R172). -/
opaque Config.factorySerial : Serial

/-- The free values: applied to the model's counter `freeCount`, a number that nothing constrains. -/
opaque Config.freeNat : Nat → Nat

/-- The three characters of a player tag that the spec does not give (notes/assumptions/15.md). -/
opaque Config.freeTag : Nat → Byte × Byte × Byte

/-- The number of whole µs a field computation takes; R54 bounds it by 150. -/
opaque Config.computationMicros : Nat → Nat

/-- Bytes of the command FIFO (R165). -/
def Config.commandFifoBytes : Nat := 256

/-- Bytes of the report FIFO (chapter 11). -/
def Config.reportFifoBytes : Nat := 2048

end Sys2Proof
end

