-- ==== Sys2Proof/Machine/Check.lean ====
section
/-! DEFINITION. The 16-bit cyclic check of R176, big-endian byte strings, and the cleared car block
of R117. -/

namespace Sys2Proof.Machine

open Sys2Proof

/-- The check register before the first byte of a part: all ones (R5, R176). -/
def checkStart : Half := 0xFFFF

/-- One bit of the check: the register shifts left by one, and 1021h is combined into it when the
bit shifted out differs from the data bit (R176). -/
def checkBit (reg : Half) (bit : Bool) : Half :=
  if reg.msb != bit then (reg <<< 1) ^^^ 0x1021 else reg <<< 1

/-- One byte of the check, most significant bit first (R176). -/
def checkByte (reg : Half) (b : Byte) : Half :=
  [7, 6, 5, 4, 3, 2, 1, 0].foldl (fun r i => checkBit r (b.getLsbD i)) reg

/-- The check over a part's bytes, in the order sent (R176). -/
def check (bytes : List Byte) : Half := bytes.foldl checkByte checkStart

/-- The `n` bytes of a number, most significant byte first (R176). -/
def beBytes : Nat → Nat → List Byte
  | 0, _ => []
  | n + 1, v => BitVec.ofNat 8 (v / 256 ^ n) :: beBytes n v

/-- The number that a byte string spells, most significant byte first (R176). -/
def beNat (bytes : List Byte) : Nat := bytes.foldl (fun v b => v * 256 + b.toNat) 0

/-- The `n` bytes of a signed number in two's complement (R176). -/
def beInt (n : Nat) (v : Int) : List Byte := beBytes n (v.emod (256 ^ n : Nat)).toNat

/-- The signed number that `n` bytes spell in two's complement (R176). -/
def beSigned (bytes : List Byte) : Int :=
  let v := beNat bytes
  if 2 * v < 256 ^ bytes.length then (v : Int) else (v : Int) - (256 ^ bytes.length : Nat)

/-- The bytes of a part followed by its check, high byte first (R176). -/
def withCheck (bytes : List Byte) : List Byte := bytes ++ beBytes 2 (check bytes).toNat

/-- Bytes as symbols of a frame. -/
def toSymbols (bytes : List Byte) : List RxSym := bytes.map RxSym.data

/-- A cleared block of car `c` (R117): the car number, owner none, every other byte 0. -/
def clearedBlock (c : Nat) : List RxSym :=
  toSymbols (withCheck (BitVec.ofNat 8 c :: 0xF0 :: List.replicate 40 0))

/-- The eight cleared blocks (R117). -/
def clearedBlocks : List (List RxSym) := (List.range 8).map clearedBlock

end Sys2Proof.Machine
end

