-- ==== Sys2Proof/Machine/State.lean ====
section
/-! DEFINITION. The state of one UJ-340, block by block as spec/00_scope.md lists the blocks, as
plain data; the reports and replies it gives; and the state after power or RESET# reset. -/

namespace Sys2Proof.Machine

open Sys2Proof

/-! ## Names -/

/-- The role stored by Configure (R169, settings entry 13 of R172). -/
inductive Role where
  | none
  | anchor
  | racer
  | observer
  | solo
deriving DecidableEq, Repr, Inhabited

/-- The ring states: those of a node (R8), those of an anchor (R13 to R17), and UNCONFIGURED. -/
inductive RingState where
  | unconfigured
  | standby
  | listening
  | unmapped
  | mapped
  | lost
  | surveying
  | cycling
  | stalled
  | deferred
deriving DecidableEq, Repr, Inhabited

/-- The receiver state (R2). -/
inductive RxState where
  | down
  | up
deriving DecidableEq, Repr, Inhabited

/-- The transmit source (R3). -/
inductive TxSource where
  | fill
  | forward
  | emit
deriving DecidableEq, Repr, Inhabited

/-- The race phases (R78). -/
inductive Phase where
  | idle
  | gathering
  | countdown
  | running
  | closing
  | results
deriving DecidableEq, Repr, Inhabited

/-- The held causes, a set drawn from FAULT and COMMAND (R84). -/
structure HeldCauses where
  fault : Bool
  command : Bool
deriving DecidableEq, Repr, Inhabited

/-- The link status (R38). -/
inductive LinkStatus where
  | counting
  | waiting
  | frozen
deriving DecidableEq, Repr, Inhabited

/-- The causes for which race time is FROZEN, in the order of R42's list. -/
inductive FreezeCause where
  | held
  | results
  | lost
  | notMapped
  | standby
  | deferred
  | top
deriving DecidableEq, Repr, Inhabited

/-- The race status with its freeze cause (R38, R42). -/
inductive RaceStatus where
  | zero
  | counting
  | waiting
  | frozen (cause : FreezeCause)
deriving DecidableEq, Repr, Inhabited

/-- The GO schedule with the link time G (R38). -/
inductive GoSchedule where
  | none
  | armed (g : Micros)
  | fired (g : Micros)
deriving DecidableEq, Repr, Inhabited

/-- The states of a car (R91). -/
inductive CarState where
  | vacant
  | entered
  | racing
  | finished
  | retired
  | unplaced
deriving DecidableEq, Repr, Inhabited

/-- The retire reasons (R91). -/
inductive RetireReason where
  | withdrawn
  | lost
  | absent
deriving DecidableEq, Repr, Inhabited

/-- A station and seat; seat A is 0 and seat B is 1 (00_scope.md). -/
structure Owner where
  station : Nat
  seat : Nat
deriving DecidableEq, Repr, Inhabited

/-- The message kinds (R57). -/
inductive MsgKind where
  | join
  | leave
  | poll
  | clearStations
  | game
  | tableWrite
  | tableRead
  | bulkSegment
  | bulkAbort
deriving DecidableEq, Repr, Inhabited

/-- The reasons with which a message is DECLINED (R74). -/
inductive Decline where
  | notGathering
  | mismatch
  | full
  | occupied
  | refused
  | noAnswer
  | noStation
  | undeliverable
  | prot
  | localOnly
  | sequence
  | noEntry
  | busy
deriving DecidableEq, Repr, Inhabited

/-- The outcome of a message (R74); ACCEPTED carries the result payload. -/
inductive MsgOutcome where
  | accepted (payload : List Byte)
  | declined (reason : Decline)
  | lost
deriving DecidableEq, Repr, Inhabited

/-- The reasons of a REFUSED reply (R163). -/
inductive RefusalReason where
  | unknown
  | malformed
  | notConfigured
  | configured
  | role
  | phase
  | seat
  | queueFull
  | notMapped
  | locked
  | busy
  | self
  | range
  | noReferral
  | occupied
  | full
  | length
deriving DecidableEq, Repr, Inhabited

/-- The reasons of a failed survey (R30, R31). -/
inductive SurveyFailure where
  | noReturn
  | unstable
  | duplicate
  | tooMany
  | tooLong
deriving DecidableEq, Repr, Inhabited

/-- The condition codes of a RING report, with the value each carries (R12). -/
inductive RingCondition where
  | linkUp
  | linkDown
  | listening
  | unmapped
  | mapped (position : Nat)
  | standby
  | lost (discarded : Nat)
  | cycling (missed : Nat)
  | stalled (missed : Nat)
  | surveying
  | anchorConflict (serial : Serial)
  | newcomer (phase : Phase)
  | stallInPhase (phase : Phase)
deriving DecidableEq, Repr, Inhabited

/-- The event that caused a PHASE report at an anchor (R78), or HEADER at a node, for which R94 names no event
(DESIGN CHOICE, notes/assumptions/90.md). -/
inductive PhaseEvent where
  | openGathering
  | closeGathering
  | startRace
  | goFired
  | abortRace
  | hold
  | resume
  | clearRace
  | stall
  | surveySuccess
  | finish
  | noRacingCar
  | header
deriving DecidableEq, Repr, Inhabited

/-- The causes of a PLACING report (R149, R150). -/
inductive PlacingCause where
  | finish
  | confirm
  | retirement
  | deadline
  | cleared
  | header
deriving DecidableEq, Repr, Inhabited

/-- The causes of a SEATS report (R106). -/
inductive SeatsCause where
  | joinOutcome
  | leaveOutcome
  | mirror
  | clear
deriving DecidableEq, Repr, Inhabited

/-- The conditions of a REFERRAL report (R99, R101, R102). -/
inductive ReferralCondition where
  | opened
  | closed
  | slotLost
deriving DecidableEq, Repr, Inhabited

/-- The twelve notice kinds (R167), in the order the rule lists them. -/
inductive NoticeKind where
  | phase
  | seats
  | placing
  | go
  | ring
  | attention
  | roll
  | referral
  | poll
  | bulk
  | bundleOverrun
  | messageDrop
deriving DecidableEq, Repr, Inhabited

/-- The freshness of a replica entry (R118). -/
inductive Freshness where
  | none
  | fresh
  | stale
  | gone
deriving DecidableEq, Repr, Inhabited

/-- The source of a car's values in a Field Bundle (R136). -/
inductive BundleSource where
  | none
  | presented
  | held
  | standing
  | own
deriving DecidableEq, Repr, Inhabited

/-- The failure reasons of a send channel (R151). -/
inductive SendFailure where
  | declined (reason : Decline)
  | lost
  | aborted
  | standby
  | deferred
deriving DecidableEq, Repr, Inhabited

/-- The reasons of a BULK FAILED report on the receiving side (R162). -/
inductive ReceiveFailure where
  | sequence
  | restarted
  | idle
  | ring
deriving DecidableEq, Repr, Inhabited

/-- The commands of the cabinet port, as a reply names them. -/
inductive Cmd where
  | configure | restart | standby | resumeRing | status | survey | openGathering | closeGathering
  | startRace | abortRace | hold | resume | clearRace | raceSetupWrite | raceSetupRead | gridWrite
  | gridRead | poll | clearStations | admitCar | refuse | join | leave | setReady
  | requestAttention | withdrawAttention | localTrigger | carReport | game | bulkOpen | bulkData
  | bulkAbort | tableWrite | tableRead | remoteTableWrite | remoteTableRead | protectOn | protectOff
  | protectionListWrite
deriving DecidableEq, Repr, Inhabited

/-! ## Frames -/

/-- The ring map: for positions 0 to 11 a station address, 15 for none, and an offset in µs (R23). -/
structure RingMap where
  addr : List Nat
  off : List Nat
deriving DecidableEq, Repr, Inhabited

/-- One car of the car table summary (R94, R176 layouts). -/
structure CarSummary where
  station : Nat
  seat : Nat
  state : CarState
  placing : Nat
  confirmed : Bool
deriving DecidableEq, Repr, Inhabited

/-- A cycle header (layout after R176). -/
structure Header where
  serial : Serial
  cycle : Nat
  epoch : Nat
  linkStamp : Micros
  raceStamp : Micros
  phase : Phase
  held : Bool
  causes : HeldCauses
  goTime : Micros
  lapTotal : Nat
  periodCode : Nat
  rollEnable : Bool
  newcomer : Bool
  claim : Nat
  roll : Half
  attention : Half
  map : RingMap
  summary : List CarSummary
deriving DecidableEq, Repr, Inhabited

/-- The data of a car block or of an own-report record (R113, R118). -/
structure CarData where
  linkStamp : Micros
  raceStamp : Micros
  x : Int
  y : Int
  z : Int
  vx : Int
  vy : Int
  vz : Int
  heading : Half
  yaw : Int
  laps : Nat
  crossing : Micros
  appearance : Half
deriving DecidableEq, Repr, Inhabited

/-- A car block whose check is good (layout after R176). -/
structure CarBlock where
  car : Nat
  station : Nat
  seat : Nat
  valid : Bool
  data : CarData
deriving DecidableEq, Repr, Inhabited

/-- A slot that is POSTED or ANSWERED (layout after R176); `payload` is the 24 payload bytes. -/
structure SlotMsg where
  answered : Bool
  relay : Nat
  cls : MsgClass
  hold : Bool
  source : Nat
  dest : Nat
  kind : MsgKind
  tag : Nat
  outcome : Nat
  len : Nat
  payload : List Byte
deriving DecidableEq, Repr, Inhabited

/-- A message slot whose check is good: none is EMPTY. -/
abbrev Slot := Option SlotMsg

/-- A collect entry (R27). -/
structure CollectEntry where
  address : Nat
  serial : Serial
  role : Nat
  seatCount : Nat
  title : Half
  revision : Half
deriving DecidableEq, Repr, Inhabited

/-- A collect header (R27). -/
structure CollectHeader where
  serial : Serial
  epoch : Nat
  attempt : Nat
  pass : Nat
  count : Nat
  overflow : Bool
deriving DecidableEq, Repr, Inhabited

/-- A frame as it went out at the link output, or into the internal loop of a SOLO station (R19):
its symbols between START and END. -/
structure OutFrame where
  kind : FrameKind
  symbols : List RxSym
  looped : Bool
deriving DecidableEq, Repr, Inhabited

/-- The frame that goes round the internal loop of a SOLO station, and the µs left before it has come
round whole (R19). -/
structure LoopFrame where
  kind : FrameKind
  symbols : List RxSym
  left : Nat
deriving DecidableEq, Repr, Inhabited

/-! ## Link port, cycle processor, survey unit -/

/-- The link port (R2, R3, R18, R19). `out` is the model's own record of the frames that the last
command which sent any has sent; `loop` is what the internal loop holds. -/
structure LinkPort where
  rx : RxState
  fillRun : Nat
  errorRun : Nat
  tx : TxSource
  byp : Bool
  out : List OutFrame
  loop : Option LoopFrame
deriving DecidableEq, Repr, Inhabited

/-- The cycle processor (R6, R8 to R15, R117). -/
structure CycleProc where
  ring : RingState
  mirrors : Option Header
  mappedEpoch : Nat
  /-- the silence count in µs, none when it is not running (R10) -/
  silence : Option Nat
  /-- the µs to the next cycle boundary of an emitting anchor (R13) -/
  nextBoundary : Option Nat
  missed : Nat
  /-- the number of the next cycle frame (R13) -/
  cycleNumber : Nat
  /-- the cycle frame emitted last that has made no valid return and is not counted missed (R14) -/
  awaited : Option Nat
  /-- the newcomer flag of the previous valid return since CYCLING was entered (R26) -/
  newcomerLast : Option Bool
  /-- the relay copy of the 8 car blocks (R117) -/
  relayCopy : List (List RxSym)
deriving DecidableEq, Repr, Inhabited

/-- A returned collect pass (R29, R30). -/
structure PassResult where
  entries : List CollectEntry
  roundTrip : Nat
deriving DecidableEq, Repr, Inhabited

/-- The attempt state of a running survey (R23), with what the SURVEY report names (R36). -/
structure SurveyRun where
  attempt : Nat
  pass : Nat
  /-- the pass has been emitted and is awaited -/
  emitted : Bool
  first : Option PassResult
  lastFailure : Option SurveyFailure
  /-- N and R of the last pass 1 and of the last pass 2 that returned (R36) -/
  returned1 : Option (Nat × Nat)
  returned2 : Option (Nat × Nat)
deriving DecidableEq, Repr, Inhabited

/-- The survey unit (R23). -/
structure SurveyUnit where
  map : RingMap
  epoch : Nat
  counter : Nat
  entries : List CollectEntry
  run : Option SurveyRun
  latch : Bool
  surveyedEpoch : Nat
deriving DecidableEq, Repr, Inhabited

/-! ## Timebase and presentation -/

/-- The presentation state of a replica entry (R125). -/
structure Presentation where
  used : CarData
  rx : Int
  ry : Int
  rz : Int
  rh : Int
  px : Int
  py : Int
  pz : Int
  ph : Half
deriving DecidableEq, Repr, Inhabited

/-- A replica entry (R118). -/
structure ReplicaEntry where
  fresh : Freshness
  owner : Option Owner
  data : Option CarData
  release : Bool
  pres : Option Presentation
deriving DecidableEq, Repr, Inhabited

/-- One car of a Field Bundle (R136). -/
structure BundleCar where
  state : CarState
  source : BundleSource
  fresh : Freshness
  x : Int
  y : Int
  z : Int
  heading : Half
  vx : Int
  vy : Int
  vz : Int
  laps : Nat
  placing : Nat
  confirmed : Bool
deriving DecidableEq, Repr, Inhabited

/-- A Field Bundle (R136, R178). -/
structure Bundle where
  number : Micros
  linkTime : Micros
  raceTime : Micros
  phase : Phase
  held : Bool
  rep : Bool
  dropped : Nat
  cars : List BundleCar
deriving DecidableEq, Repr, Inhabited

/-- What a field computation writes into one entry when it ends (R133, R134). -/
structure EntryWrite where
  fresh : Freshness
  pres : Presentation
deriving DecidableEq, Repr, Inhabited

/-- A field computation in progress (R54, R127): the µs since its edge, the bundle and the entry
writes it forms from the state at its edge, and for each car whether its entry has not been cleared
since. -/
structure Computation where
  elapsed : Nat
  serialNo : Nat
  bundle : Bundle
  writes : List (Option EntryWrite)
  live : List Bool
deriving DecidableEq, Repr, Inhabited

/-- The timebase (R38). -/
structure Timebase where
  link : Micros
  linkStatus : LinkStatus
  linkWait : Nat
  race : Micros
  raceStatus : RaceStatus
  /-- the µs left of a wait of race time (R38, R45); 0 in every status but WAITING, which is the model's choice
  where R38 does not give it (DESIGN CHOICE, notes/assumptions/88.md) -/
  raceWait : Nat
  go : GoSchedule
  /-- the µs left of the GO pulse, none when idle (R50); the GO pin is asserted while it runs -/
  pulse : Option Nat
  latch : Option (Micros × Micros)
  computation : Option Computation
deriving DecidableEq, Repr, Inhabited

/-! ## Slot engine -/

/-- A queued message (R56); `seat` is the seat that a JOIN or LEAVE concerns (R103, R105). -/
structure QueuedMsg where
  kind : MsgKind
  cls : MsgClass
  dest : Nat
  tag : Nat
  payload : List Byte
  order : Nat
  seat : Nat
deriving DecidableEq, Repr, Inhabited

/-- The progress of an outstanding entry (R56); a REPORT PENDING entry keeps its outcome and the
order in which outcomes were taken (R74). -/
inductive Progress where
  | waiting
  | reportPending (outcome : MsgOutcome) (order : Nat)
deriving DecidableEq, Repr, Inhabited

/-- An outstanding entry (R56). -/
structure Outstanding where
  kind : MsgKind
  cls : MsgClass
  tag : Nat
  dest : Nat
  place : Nat
  broadcast : Bool
  waited : Nat
  progress : Progress
  /-- the send channel of a bulk segment or abort -/
  channel : Option Nat
  /-- the seat of a JOIN or LEAVE -/
  seat : Nat
  /-- the entry was posted, or its slot seen held, in the frame now passing (R73) -/
  spared : Bool
deriving DecidableEq, Repr, Inhabited

/-- A place of the held-slot list, with the source and tag of the slot (R56). -/
structure HeldPlace where
  place : Nat
  source : Nat
  tag : Nat
deriving DecidableEq, Repr, Inhabited

/-- The four posting settings: urgent budget, normal budget, ordering mode, starvation limit (R56). -/
structure Posting where
  urgent : Nat
  normal : Nat
  order : Nat
  starvation : Nat
deriving DecidableEq, Repr, Inhabited

/-- The slot engine (R56). `inForce` is the posting settings that the frame now passing, or being emitted,
began with: a change of them acts from the next frame (R56, R172). -/
structure SlotEngine where
  urgent : List QueuedMsg
  normal : List QueuedMsg
  arrival : Nat
  tagCounter : Nat
  outstanding : List Outstanding
  /-- the order given to outcomes as they are taken (R74) -/
  outcomeOrder : Nat
  starvation : Nat
  claimClear : Bool
  urgentUsed : Nat
  normalUsed : Nat
  claim : Nat
  claimAge : Nat
  /-- the claim in the header the anchor last emitted (R67) -/
  claimEmitted : Nat
  held : List HeldPlace
  /-- the six slots for the next cycle frame, as the relay or a survey holds them (R15, R71) -/
  nextSlots : List Slot
  inForce : Posting
deriving DecidableEq, Repr, Inhabited

/-! ## Race controller -/

/-- A car record (R91) with its lost-car timer (R93). The placing and confirmed flag of a car are
those of its entry in the finish list (R138) and are read from there. -/
structure Car where
  state : CarState
  owner : Option Owner
  tag : List Byte
  laps : Nat
  stamp : Micros
  crossing : Micros
  finish : Option Micros
  reason : Option RetireReason
  timer : Option Micros
deriving DecidableEq, Repr, Inhabited

/-- An entry of the finish list (R138). -/
structure FinishEntry where
  car : Nat
  time : Micros
  confirmed : Bool
deriving DecidableEq, Repr, Inhabited

/-- The carrier of a referred join: a held slot, or the anchor's own join (R99). -/
inductive Carrier where
  | own
  | slot (place source tag : Nat)
deriving DecidableEq, Repr, Inhabited

/-- A join as the race controller processes it (R96, R98). -/
structure JoinRequest where
  station : Nat
  seat : Nat
  tag : List Byte
  title : Half
  revision : Half
deriving DecidableEq, Repr, Inhabited

/-- The answer of a join: ACCEPTED with a car, or DECLINED with a reason (R98, R99). -/
inductive JoinAnswer where
  | accepted (car : Nat)
  | declined (reason : Decline)
deriving DecidableEq, Repr, Inhabited

/-- The referral record (R99); PENDING and DECIDED hold the µs left before its timeout. A decision ends the
timeout (R101), so DECIDED holds what was left at the decision (notes/assumptions/60.md). -/
inductive Referral where
  | free
  | pending (join : JoinRequest) (carrier : Carrier) (left : Nat)
  | decided (join : JoinRequest) (carrier : Carrier) (answer : JoinAnswer) (left : Nat)
deriving DecidableEq, Repr, Inhabited

/-- The race controller (R77, R138). -/
structure RaceControl where
  phase : Phase
  causes : HeldCauses
  countdownMark : Bool
  cars : List Car
  setup : List Nat
  grid : List Nat
  finish : List FinishEntry
  deadline : Option Micros
  referral : Referral
  roll : Half
  attention : Half
deriving DecidableEq, Repr, Inhabited

/-! ## Seat unit, bulk unit -/

/-- A seat record (R95): the car is present when SEATED, the player tag when REQUESTED or SEATED. -/
inductive SeatRecord where
  | unseated
  | requested (tag : List Byte)
  | seated (car : Nat) (tag : List Byte)
deriving DecidableEq, Repr, Inhabited

/-- The seat unit (R95) with the own-report records (R113). -/
structure SeatUnit where
  seats : List SeatRecord
  ready : Bool
  attentionPending : Bool
  attentionCode : Nat
  own : List (Option CarData)
deriving DecidableEq, Repr, Inhabited

/-- The states of a send channel (R151). -/
inductive ChannelState where
  | idle
  | active
  | done
  | failed (reason : SendFailure)
deriving DecidableEq, Repr, Inhabited

/-- What a send channel has posted and awaits (R151). -/
inductive SegmentOut where
  | segment (sequence count : Nat)
  | abort
deriving DecidableEq, Repr, Inhabited

/-- A send channel (R151). `ready` is the arrival order of its ready segment or ready BULK ABORT
(R61). The Armed and Done flags follow the state and are computed from it. -/
structure SendChannel where
  state : ChannelState
  abortPending : Bool
  peer : Nat
  total : Nat
  remaining : Nat
  supplied : Nat
  nextSeq : Nat
  buffer : List Byte
  out : Option SegmentOut
  optEnd : Bool
  optEach : Bool
  ready : Option Nat
deriving DecidableEq, Repr, Inhabited

/-- An OPEN receive entry (R158): `idle` is the idle timer in µs and `limit` the limit in force
when it was last started, in µs. -/
structure ReceiveEntry where
  source : Nat
  channel : Nat
  expected : Nat
  total : Nat
  received : Nat
  idle : Nat
  limit : Nat
deriving DecidableEq, Repr, Inhabited

/-- The bulk unit (R151, R158). -/
structure BulkUnit where
  send : List SendChannel
  recv : List (Option ReceiveEntry)
deriving DecidableEq, Repr, Inhabited

/-! ## Reports -/

/-- A car named in a PLACING report, with its placing and confirmed flag (R149). -/
structure PlacedCar where
  car : Nat
  placing : Nat
  confirmed : Bool
deriving DecidableEq, Repr, Inhabited

/-- The state that a Status reply returns, by part (R168). -/
inductive StatusData where
  | link (rx : RxState) (tx : TxSource) (byp : Bool) (ring : RingState) (mirrors : Option Header)
      (mappedEpoch : Nat)
  | survey (map : RingMap) (epoch : Nat) (entries : List CollectEntry) (running : Option (Nat × Nat))
      (surveyedEpoch : Nat)
  | time (link : Micros) (linkStatus : LinkStatus) (linkWait : Nat) (race : Micros)
      (raceStatus : RaceStatus) (raceWait : Nat) (go : GoSchedule) (pulse : Bool)
      (latch : Option (Micros × Micros)) (computing : Bool) (countdownMark : Option Bool)
      (offset : Option Nat)
  | slots (urgent normal : Nat) (outstanding : List Outstanding) (starvation : Nat)
      (claim : Option (Nat × Nat)) (held : List HeldPlace)
  | race (phase : Phase) (causes : HeldCauses) (countdownMark : Bool) (setup grid : List Nat)
      (finish : List (PlacedCar × Micros)) (deadline : Option Micros)
  | car (c : Nat) (record : Car) (placing : Nat) (confirmed : Bool)
  | seats (records : List SeatRecord) (ready pending : Bool) (code : Nat) (leaving : List Bool)
      (referral : Option Referral) (roll attention : Half)
  | ownReports (records : List (Option CarData))
  | replica (c : Nat) (entry : ReplicaEntry)
  | bulk (send : List SendChannel) (armed done : List Bool) (recv : List (Option ReceiveEntry))
  | port (commandBytes reportFree : Nat) (notices : List NoticeKind) (cfull attn lock : Bool)
      (fieldNumber : Micros) (dropped : Nat)
  | settings (entries : List Nat) (flag : Bool) (list : Groups)
deriving DecidableEq, Repr, Inhabited

/-- The result data that a reply carries, as the rule of its command names it (R163). -/
inductive ReplyData where
  | none
  | tag (t : Nat)
  | stillHeld
  | values (vs : List Nat)
  | indexed (vs : List (Nat × Nat))
  | car (c : Nat)
  | bulk (buffered left : Nat)
  | protection (flag : Bool) (list : Groups)
  | status (d : StatusData)
deriving DecidableEq, Repr, Inhabited

/-- The kind of a reply (Conventions, R163). -/
inductive ReplyBody where
  | done (d : ReplyData)
  | taken (d : ReplyData)
  | refused (r : RefusalReason)
deriving DecidableEq, Repr, Inhabited

/-- What a reply names as its command: a command, an unknown code, or nothing (R163, R165). -/
inductive ReplyTo where
  | command (c : Cmd)
  | code (b : Byte)
  | nothing
deriving DecidableEq, Repr, Inhabited

/-- The SURVEY report (R36). -/
structure SurveyReport where
  failure : Option SurveyFailure
  attempts : Nat
  epoch : Nat
  n : Nat
  r : Nat
  shared : Option (Nat × Serial × Serial)
  missing : Nat
deriving DecidableEq, Repr, Inhabited

/-- The reports and replies of the cabinet port (R166), with the fields named in the rules that
queue them. -/
inductive Report where
  | reply (re : ReplyTo) (body : ReplyBody)
  | ring (condition : RingCondition) (ring : RingState) (epoch : Nat)
  | survey (r : SurveyReport)
  | phase (phase : Phase) (held : Bool) (causes : HeldCauses) (race : Micros) (event : PhaseEvent)
  | seats (cause : SeatsCause) (seat : Option Nat) (outcome : Option MsgOutcome) (named : Option Nat)
      (records : List SeatRecord) (ready pending : Bool) (code : Nat)
  | appearance (car : Nat) (owner : Owner) (code : Half)
  | placing (cause : PlacingCause) (changed : List PlacedCar) (list : List (PlacedCar × Micros))
      (racing : Nat)
  | go (g link race : Micros) (late : Bool)
  | attention (raised field : Half)
  | roll (result set cleared : Half)
  | referral (condition : ReferralCondition) (station seat : Nat) (tag : List Byte) (timeout : Nat)
      (answer : Option JoinAnswer)
  | pollAnswer (station tag : Nat) (outcome : MsgOutcome)
  | pollComplete (code : Nat)
  | bulkProgress (channel peer sequence received remaining : Nat)
  | bulkDone (channel peer total : Nat)
  | bulkFailedSend (channel peer : Nat) (reason : SendFailure) (accepted remaining : Nat)
  | bulkFailedReceive (source channel : Nat) (reason : ReceiveFailure) (received total : Nat)
  | bulkEnd (source channel total : Nat) (endMark : Bool)
  | bulkAborted (source channel received : Nat)
  | bulkSegmentIn (source channel sequence : Nat) (data : List Byte) (endMark : Bool)
      (received total : Nat)
  | outcome (kind : MsgKind) (tag dest : Nat) (outcome : MsgOutcome)
  | gameIn (source : Nat) (cls : MsgClass) (tag : Nat) (payload : List Byte) (broadcast : Bool)
  | notice (kinds : List NoticeKind)
  | bundle (b : Bundle)
deriving DecidableEq, Repr, Inhabited

/-! ## Cabinet port -/

/-- A command frame in the command FIFO: the bytes of it that the FIFO holds, length byte first,
whether it lost any, and its command code unless that was lost (R165). A damaged frame that lost its
length byte holds no byte and has no code. -/
structure PortFrame where
  bytes : List Byte
  damaged : Bool
  code : Option Byte
deriving DecidableEq, Repr, Inhabited

/-- The frame being written: the bytes still to come, the bytes of it in the FIFO, whether it lost any,
whether its command code is still to come, and that code unless it was lost (R165). -/
structure Writing where
  need : Nat
  bytes : List Byte
  damaged : Bool
  codeNext : Bool
  code : Option Byte
deriving DecidableEq, Repr, Inhabited

/-- The cabinet port (R163 to R167) and the pins D7 to D0 (R179). The report FIFO is the list of its
reports, oldest first, of the first of which `headRead` bytes have been read. -/
structure CabinetPort where
  frames : List PortFrame
  writing : Option Writing
  reports : List Report
  headRead : Nat
  waiting : Option Report
  notices : List NoticeKind
  dataOut : Byte
deriving DecidableEq, Repr, Inhabited

/-- The settings unit (R172, R175) and the level of the LOCK# pin. -/
structure SettingsUnit where
  entries : List Nat
  flag : Bool
  list : Groups
  lock : Bool
deriving DecidableEq, Repr, Inhabited

/-! ## The whole part -/

/-- The state of the part: its blocks, the model's counter of free values, and the queue of the
commands that wait, first in, first out. -/
structure State where
  link : LinkPort
  cyc : CycleProc
  survey : SurveyUnit
  time : Timebase
  slots : SlotEngine
  race : RaceControl
  seat : SeatUnit
  replica : List ReplicaEntry
  fieldNumber : Micros
  dropped : Nat
  bulk : BulkUnit
  port : CabinetPort
  settings : SettingsUnit
  freeCount : Nat
  pending : List Instr
deriving DecidableEq, Repr, Inhabited

/-- The faults: none. The spec gives every command an effect or a refusal by reply, so no command
stops the part (safe: nothing is raised). -/
inductive Fault where
deriving DecidableEq, Repr

/-- The refusals. -/
inductive Refusal where
  /-- Raised by `exec` alone, for a command that has no meaning yet: none is left (safe). -/
  | notModelled (mnemonic : String)
deriving DecidableEq, Repr

/-! ## Reset -/

/-- A VACANT car: every field but its state removed (R91). -/
def Car.vacant : Car :=
  { state := .vacant, owner := none, tag := [], laps := 0, stamp := 0, crossing := 0, finish := none,
    reason := none, timer := none }

/-- A replica entry in NONE (R118). -/
def ReplicaEntry.empty : ReplicaEntry :=
  { fresh := .none, owner := none, data := none, release := false, pres := none }

/-- A send channel after reset and Restart (R151). -/
def SendChannel.reset : SendChannel :=
  { state := .idle, abortPending := false, peer := 0, total := 0, remaining := 0, supplied := 0,
    nextSeq := 0, buffer := [], out := none, optEnd := false, optEach := false, ready := none }

/-- The empty ring map: every position "none" (R23). -/
def RingMap.empty : RingMap := { addr := List.replicate 12 15, off := List.replicate 12 0 }

/-- No held cause (R84). -/
def HeldCauses.none : HeldCauses := { fault := false, command := false }

/-- The defaults of race setup (R88). -/
def setupDefaults : List Nat := [3, 30, 0, 10, 20, 3, 1, 1, 1]

/-- The grid with every entry none (R90). -/
def gridDefaults : List Nat := List.replicate 30 8

/-- The settings entries after power or RESET# reset (R172); 17 to 19 are the factory serial. -/
def settingsDefaults (serial : Serial) : List Nat :=
  [16, 1, 2, 1, 1, 8, 0, 100, 4, 4000, 4096, 2000, 0, 0, 0, 0, 0,
   serial.toNat / 4294967296, serial.toNat / 65536 % 65536, serial.toNat % 65536]

/-- The link port after power or RESET# reset (R2, R3, R18). -/
def LinkPort.reset : LinkPort :=
  { rx := .down, fillRun := 0, errorRun := 0, tx := .fill, byp := true, out := [], loop := none }

/-- The cycle processor after power or RESET# reset (R6, R8, R9, R13, R14, R117). -/
def CycleProc.reset : CycleProc :=
  { ring := .unconfigured, mirrors := none, mappedEpoch := 0, silence := none, nextBoundary := none,
    missed := 0, cycleNumber := 0, awaited := none, newcomerLast := none, relayCopy := clearedBlocks }

/-- The survey unit after power or RESET# reset (R23). -/
def SurveyUnit.reset : SurveyUnit :=
  { map := RingMap.empty, epoch := 0, counter := 0, entries := [], run := none, latch := false,
    surveyedEpoch := 0 }

/-- The timebase after power or RESET# reset (R38). -/
def Timebase.reset : Timebase :=
  { link := 0, linkStatus := .counting, linkWait := 0, race := 0, raceStatus := .zero, raceWait := 0,
    go := .none, pulse := none, latch := none, computation := none }

/-- The slot engine after power or RESET# reset (R56). -/
def SlotEngine.reset : SlotEngine :=
  { urgent := [], normal := [], arrival := 0, tagCounter := 0, outstanding := [], outcomeOrder := 0,
    starvation := 0, claimClear := false, urgentUsed := 0, normalUsed := 0, claim := 0, claimAge := 0,
    claimEmitted := 0, held := [], nextSlots := List.replicate 6 none,
    inForce := { urgent := 2, normal := 1, order := 1, starvation := 8 } }

/-- The race controller after power or RESET# reset (R77, R138). -/
def RaceControl.reset : RaceControl :=
  { phase := .idle, causes := HeldCauses.none, countdownMark := false,
    cars := List.replicate 8 Car.vacant, setup := setupDefaults, grid := gridDefaults, finish := [],
    deadline := none, referral := .free, roll := 0, attention := 0 }

/-- The seat unit after power or RESET# reset (R95, R113). -/
def SeatUnit.reset : SeatUnit :=
  { seats := [.unseated, .unseated], ready := false, attentionPending := false, attentionCode := 0,
    own := [none, none] }

/-- The bulk unit after power or RESET# reset (R151, R158). -/
def BulkUnit.reset : BulkUnit :=
  { send := [SendChannel.reset, SendChannel.reset], recv := [none, none, none, none] }

/-- The cabinet port after power or RESET# reset (R165 to R167). -/
def CabinetPort.reset : CabinetPort :=
  { frames := [], writing := none, reports := [], headRead := 0, waiting := none, notices := [],
    dataOut := 0 }

/-- The settings unit after power or RESET# reset (R172, R175); the pull-up holds LOCK# released
until the key switch drives it (R179). -/
def SettingsUnit.reset : SettingsUnit :=
  { entries := settingsDefaults Config.factorySerial, flag := false,
    list := { roll := true, posting := true, presentation := true }, lock := false }

/-- The part after power or RESET# reset, with no command waiting. -/
def State.reset : State :=
  { link := LinkPort.reset, cyc := CycleProc.reset, survey := SurveyUnit.reset, time := Timebase.reset,
    slots := SlotEngine.reset, race := RaceControl.reset, seat := SeatUnit.reset,
    replica := List.replicate 8 ReplicaEntry.empty, fieldNumber := 0, dropped := 0,
    bulk := BulkUnit.reset, port := CabinetPort.reset, settings := SettingsUnit.reset,
    freeCount := 0, pending := [] }

end Sys2Proof.Machine
end

