-- ==== Sys2Proof/Machine/Codes.lean ====
section
/-! DEFINITION. The codes of the cabinet port that the spec gives no value: constants with no body, so that
no proof can see their values. Chapter 12 gives each code one byte; the codes that it states are written in
Machine/Formats.lean (notes/assumptions/7.md, notes/assumptions/8.md). -/

namespace Sys2Proof.Machine

open Sys2Proof

/-! ## Report kinds and reply kinds (R163, R166) -/

/-- The kinds of report frame but the Field Bundle, whose kind is 40h; a reply's kind is its reply kind. -/
inductive ReportKind where
  | done | taken | refused | ring | survey | phase | seats | appearance | placing | go | attention | roll
  | referral | pollAnswer | pollComplete | bulkProgress | bulkDone | bulkFailed | bulkEnd | bulkAborted
  | bulkSegmentIn | outcome | gameIn | notice
deriving DecidableEq, Repr, Inhabited

/-- The kind byte of a report frame (R166). -/
opaque Config.reportKindCode : ReportKind → Byte

/-- The command code of a cabinet command; the Car Report's is 20h. -/
opaque Config.commandCode : Cmd → Byte

/-- What a reply that names no command carries in the place of a command code (R165). -/
opaque Config.noCommand : Byte

/-- The code of a refusal reason (R163). -/
opaque Config.refusalCode : RefusalReason → Byte

/-! ## Codes in the contents -/

/-- What stands in the place of a number that a report does not carry: a number, an address, a car. -/
opaque Config.absent : Byte

/-- The code of a RING condition (R12), by its place in R12's table from 0. -/
opaque Config.ringConditionCode : Nat → Byte

/-- The code of a ring state. -/
opaque Config.ringStateCode : RingState → Byte

/-- The code of a receiver state. -/
opaque Config.rxCode : RxState → Byte

/-- The code of a transmit source. -/
opaque Config.txCode : TxSource → Byte

/-- The code of a survey failure; a success has that of none (R36). -/
opaque Config.surveyCode : Option SurveyFailure → Byte

/-- The code of the event of a PHASE report (R78, R94). -/
opaque Config.phaseEventCode : PhaseEvent → Byte

/-- The code of a SEATS cause (R106). -/
opaque Config.seatsCauseCode : SeatsCause → Byte

/-- The code of the state of a seat record, by its place in R95's list from 0. -/
opaque Config.seatStateCode : Nat → Byte

/-- The code of the outcome LOST; ACCEPTED and DECLINED have those of a slot. -/
opaque Config.lostCode : Byte

/-- The code of a PLACING cause (R149, R150). -/
opaque Config.placingCauseCode : PlacingCause → Byte

/-- The code of a REFERRAL condition (R99, R101, R102). -/
opaque Config.referralConditionCode : ReferralCondition → Byte

/-- The code of the state of the referral record, FREE, PENDING, DECIDED from 0 (R99). -/
opaque Config.referralStateCode : Nat → Byte

/-- The code of a carrier, own or a held slot from 0 (R99). -/
opaque Config.carrierCode : Nat → Byte

/-- The code of a send channel's failure reason, by its place in R151's list from 0. -/
opaque Config.sendFailureCode : Nat → Byte

/-- The code of a receive entry's failure reason (R162). -/
opaque Config.receiveFailureCode : ReceiveFailure → Byte

/-- The code of the side of a BULK FAILED report, SEND and RECEIVE from 0 (R162). -/
opaque Config.sideCode : Nat → Byte

/-- The code of a send channel's state, IDLE, ACTIVE, DONE, FAILED from 0 (R151). -/
opaque Config.channelStateCode : Nat → Byte

/-- The code of what a channel has outstanding, none, a segment, a BULK ABORT from 0 (R151). -/
opaque Config.channelOutCode : Nat → Byte

/-- The code of a retire reason (R91). -/
opaque Config.retireCode : RetireReason → Byte

/-- The code of a link status (R38). -/
opaque Config.linkStatusCode : LinkStatus → Byte

/-- The code of a race status, ZERO, COUNTING, WAITING, FROZEN from 0 (R38). -/
opaque Config.raceStatusCode : Nat → Byte

/-- The code of a freeze cause; none while race time is not FROZEN (R38). -/
opaque Config.freezeCode : Option FreezeCause → Byte

/-- The code of a GO schedule, NONE, ARMED, FIRED from 0 (R38). -/
opaque Config.goScheduleCode : Nat → Byte

/-- The code of an outstanding entry's progress, WAITING, REPORT PENDING from 0 (R56). -/
opaque Config.progressCode : Nat → Byte

/-! ## Codes in the arguments of commands -/

/-- The parts of the state that Status names by a selector (R168). -/
inductive PartName where
  | link | survey | time | slots | race | car | seats | ownReports | replica | bulk | port | settings
deriving DecidableEq, Repr, Inhabited

/-- The selector of a part (R168). -/
opaque Config.partCode : PartName → Byte

/-- The argument "any" of Admit (R100). -/
opaque Config.anyCar : Byte

end Sys2Proof.Machine
end

