-- ==== Sys2Proof/Machine/Formats.lean ====
section
/-! DEFINITION. The byte layouts of chapter 12: cycle header, car block, message slot, collect
header and entry, Car Report frame and Field Bundle, read from symbols and written back; the payloads
of messages; and the sizes of the reports. -/

namespace Sys2Proof.Machine

open Sys2Proof

/-! ## Codes -/

/-- The phase codes (header byte 17). -/
def phaseCode : Phase → Nat
  | .idle => 0 | .gathering => 1 | .countdown => 2 | .running => 3 | .closing => 4 | .results => 5

/-- The phase that a code names; none above 5 (R177). -/
def phaseOf : Nat → Option Phase
  | 0 => some .idle | 1 => some .gathering | 2 => some .countdown | 3 => some .running
  | 4 => some .closing | 5 => some .results | _ => none

/-- The car state codes (car table summary). -/
def carStateCode : CarState → Nat
  | .vacant => 0 | .entered => 1 | .racing => 2 | .finished => 3 | .retired => 4 | .unplaced => 5

/-- The car state that a code names; none above 5 (R177). -/
def carStateOf : Nat → Option CarState
  | 0 => some .vacant | 1 => some .entered | 2 => some .racing | 3 => some .finished
  | 4 => some .retired | 5 => some .unplaced | _ => none

/-- The message kind codes (slot byte 2). -/
def kindCode : MsgKind → Nat
  | .join => 1 | .leave => 2 | .poll => 3 | .clearStations => 4 | .game => 5 | .tableWrite => 6
  | .tableRead => 7 | .bulkSegment => 8 | .bulkAbort => 9

/-- The message kind that a code names. -/
def kindOf : Nat → Option MsgKind
  | 1 => some .join | 2 => some .leave | 3 => some .poll | 4 => some .clearStations
  | 5 => some .game | 6 => some .tableWrite | 7 => some .tableRead | 8 => some .bulkSegment
  | 9 => some .bulkAbort | _ => none

/-- The DECLINED outcome codes (slot byte 4). -/
def declineCode : Decline → Nat
  | .notGathering => 2 | .mismatch => 3 | .full => 4 | .occupied => 5 | .refused => 6
  | .noAnswer => 7 | .noStation => 8 | .undeliverable => 9 | .prot => 10 | .localOnly => 11
  | .sequence => 12 | .noEntry => 13 | .busy => 14

/-- The outcome that an outcome code and result payload carry; none for codes 0 and above 14. -/
def outcomeOf (code : Nat) (payload : List Byte) : Option MsgOutcome :=
  match code with
  | 1 => some (.accepted payload)
  | 2 => some (.declined .notGathering) | 3 => some (.declined .mismatch)
  | 4 => some (.declined .full) | 5 => some (.declined .occupied) | 6 => some (.declined .refused)
  | 7 => some (.declined .noAnswer) | 8 => some (.declined .noStation)
  | 9 => some (.declined .undeliverable) | 10 => some (.declined .prot)
  | 11 => some (.declined .localOnly) | 12 => some (.declined .sequence)
  | 13 => some (.declined .noEntry) | 14 => some (.declined .busy)
  | _ => none

/-- The role codes (settings entry 13, collect entry byte 7). -/
def roleCode : Role → Nat
  | .none => 0 | .anchor => 1 | .racer => 2 | .observer => 3 | .solo => 4

/-- The role that a code names. -/
def roleOf : Nat → Role
  | 1 => .anchor | 2 => .racer | 3 => .observer | 4 => .solo | _ => .none

/-! ## Parts of a frame -/

/-- The bytes of a run of symbols; none when one is a code error (R1). -/
def bytesOf : List RxSym → Option (List Byte)
  | [] => some []
  | .codeError :: _ => none
  | .data b :: rest => (bytesOf rest).map (b :: ·)

/-- The bytes of a part of `n` bytes that was received whole, without a code error, and whose check
is good (R1, R4, R176). -/
def goodPart (n : Nat) (syms : List RxSym) : Option (List Byte) :=
  if syms.length = n then
    match bytesOf syms with
    | none => none
    | some b => if beNat (b.drop (n - 2)) = (check (b.take (n - 2))).toNat then some b else none
  else none

/-- Byte `i` of a part. -/
def byteAt (b : List Byte) (i : Nat) : Nat := (b.getD i 0).toNat

/-- The number in bytes `i` to `i + n - 1` of a part. -/
def numAt (b : List Byte) (i n : Nat) : Nat := beNat ((b.drop i).take n)

/-- The signed number in bytes `i` to `i + n - 1` of a part. -/
def intAt (b : List Byte) (i n : Nat) : Int := beSigned ((b.drop i).take n)

/-- Bit `k` of a number. -/
def bitOf (v k : Nat) : Bool := v / 2 ^ k % 2 == 1

/-- A bit as a number. -/
def bitNum (b : Bool) (k : Nat) : Nat := if b then 2 ^ k else 0

/-! ## Cycle header -/

/-- A car's summary from its two bytes; none for a state above 5 or a placing above 8 (R177). -/
def summaryOf (b0 b1 : Nat) : Option CarSummary :=
  match carStateOf (b0 % 8) with
  | none => none
  | some st =>
    if b1 % 16 ≤ 8 then
      some { station := b0 / 16, seat := b0 / 8 % 2, state := st, placing := b1 % 16,
             confirmed := bitOf b1 4 }
    else none

/-- The two bytes of a car's summary. -/
def summaryBytes (c : CarSummary) : List Byte :=
  [BitVec.ofNat 8 (c.station * 16 + c.seat * 8 + carStateCode c.state),
   BitVec.ofNat 8 (c.placing + bitNum c.confirmed 4)]

/-- The eight summaries at header bytes 46 to 61; none when one is outside its codes. -/
def summariesOf (b : List Byte) : Option (List CarSummary) :=
  (List.range 8).mapM fun c => summaryOf (byteAt b (46 + 2 * c)) (byteAt b (47 + 2 * c))

/-- The twelve half-bytes of the map addresses at header bytes 29 to 34. -/
def mapAddrOf (b : List Byte) : List Nat :=
  (List.range 12).map fun p =>
    if p % 2 = 0 then byteAt b (29 + p / 2) / 16 else byteAt b (29 + p / 2) % 16

/-- A cycle header from its 64 bytes; none for a value outside its codes (R177). A value outside its layout that
R177 does not name, such as a lap total of 0 or above 99, leaves the header valid
(notes/assumptions/83.md). -/
def decodeHeader (b : List Byte) : Option Header :=
  match phaseOf (byteAt b 17 % 8), summariesOf b with
  | some phase, some summary =>
    let off := 0 :: (List.range 11).map fun p => byteAt b (35 + p)
    if byteAt b 24 ≤ 11 && off.all (· ≤ 200) then
      some
        { serial := BitVec.ofNat 48 (numAt b 0 6), cycle := numAt b 6 2, epoch := byteAt b 8,
          linkStamp := BitVec.ofNat 32 (numAt b 9 4), raceStamp := BitVec.ofNat 32 (numAt b 13 4),
          phase := phase, held := bitOf (byteAt b 17) 3,
          causes := { fault := bitOf (byteAt b 17) 4, command := bitOf (byteAt b 17) 5 },
          goTime := BitVec.ofNat 32 (numAt b 18 4), lapTotal := byteAt b 22,
          periodCode := byteAt b 23 % 4, rollEnable := bitOf (byteAt b 23) 2,
          newcomer := bitOf (byteAt b 23) 3, claim := byteAt b 24,
          roll := BitVec.ofNat 16 (numAt b 25 2), attention := BitVec.ofNat 16 (numAt b 27 2),
          map := { addr := mapAddrOf b, off := off }, summary := summary }
    else none
  | _, _ => none

/-- A cycle header from the symbols received; none when its check fails (R7) or it carries a value
outside its codes (R177). -/
def parseHeader (syms : List RxSym) : Option Header :=
  match goodPart 64 syms with
  | none => none
  | some b => decodeHeader b

/-- Byte 17 of a header: phase, held flag and causes. -/
def raceStateByte (h : Header) : Nat :=
  phaseCode h.phase + bitNum h.held 3 + bitNum h.causes.fault 4 + bitNum h.causes.command 5

/-- Byte 23 of a header: cycle period code, roll-call-enable flag, newcomer flag. -/
def cycleControlByte (h : Header) : Nat :=
  h.periodCode + bitNum h.rollEnable 2 + bitNum h.newcomer 3

/-- The 64 bytes of a cycle header with its check (R176). -/
def headerBytes (h : Header) : List Byte :=
  withCheck
    (beBytes 6 h.serial.toNat ++ beBytes 2 h.cycle ++ beBytes 1 h.epoch ++
      beBytes 4 h.linkStamp.toNat ++ beBytes 4 h.raceStamp.toNat ++ beBytes 1 (raceStateByte h) ++
      beBytes 4 h.goTime.toNat ++ beBytes 1 h.lapTotal ++ beBytes 1 (cycleControlByte h) ++
      beBytes 1 h.claim ++ beBytes 2 h.roll.toNat ++ beBytes 2 h.attention.toNat ++
      (List.range 6).flatMap (fun i =>
        beBytes 1 (h.map.addr.getD (2 * i) 15 * 16 + h.map.addr.getD (2 * i + 1) 15)) ++
      (List.range 11).flatMap (fun i => beBytes 1 (h.map.off.getD (i + 1) 0)) ++
      h.summary.flatMap summaryBytes)

/-- What a forwarding station may write into a cycle header (R5): the claim field, bits of the roll
and attention fields, and the newcomer flag. -/
structure HeaderMarks where
  claim : Option Nat
  roll : Half
  attention : Half
  newcomer : Bool
deriving DecidableEq, Repr, Inhabited

/-- No mark written. -/
def noMarks : HeaderMarks := { claim := none, roll := 0, attention := 0, newcomer := false }

/-- Replace byte `i` of a part. -/
def setByte (b : List Byte) (i : Nat) (v : Byte) : List Byte := b.set i v

/-- OR a byte into byte `i` of a part. -/
def orByte (b : List Byte) (i : Nat) (v : Byte) : List Byte := b.set i (b.getD i 0 ||| v)

/-- The header bytes with the marks written and the check regenerated (R5). -/
def markHeader (b : List Byte) (m : HeaderMarks) : List Byte :=
  let b1 := match m.claim with
    | none => b
    | some c => setByte b 24 (BitVec.ofNat 8 c)
  let b2 := orByte (orByte b1 25 (m.roll.extractLsb' 8 8)) 26 (m.roll.extractLsb' 0 8)
  let b3 := orByte (orByte b2 27 (m.attention.extractLsb' 8 8)) 28 (m.attention.extractLsb' 0 8)
  let b4 := if m.newcomer then orByte b3 23 0x08 else b3
  withCheck (b4.take 62)

/-- The header symbols as forwarded: as received when no mark is written (R5). -/
def forwardHeader (syms : List RxSym) (m : HeaderMarks) : List RxSym :=
  if m = noMarks then syms
  else
    match bytesOf syms with
    | none => syms
    | some b => toSymbols (markHeader b m)

/-! ## Car blocks -/

/-- A car block from its 44 bytes. -/
def decodeBlock (b : List Byte) : CarBlock :=
  { car := byteAt b 0, station := byteAt b 1 / 16, seat := byteAt b 1 % 2,
    valid := bitOf (byteAt b 1) 1,
    data :=
      { linkStamp := BitVec.ofNat 32 (numAt b 2 4), raceStamp := BitVec.ofNat 32 (numAt b 6 4),
        x := intAt b 10 3, y := intAt b 13 3, z := intAt b 16 3,
        vx := intAt b 19 4, vy := intAt b 23 4, vz := intAt b 27 4,
        heading := BitVec.ofNat 16 (numAt b 31 2), yaw := intAt b 33 2, laps := byteAt b 35,
        crossing := BitVec.ofNat 32 (numAt b 36 4), appearance := BitVec.ofNat 16 (numAt b 40 2) } }

/-- A car block from the symbols received; none when its check fails. -/
def parseBlock (syms : List RxSym) : Option CarBlock := (goodPart 44 syms).map decodeBlock

/-- The 44 bytes of a car block with its check. -/
def blockBytes (k : CarBlock) : List Byte :=
  withCheck
    (beBytes 1 k.car ++ beBytes 1 (k.station * 16 + bitNum k.valid 1 + k.seat) ++
      beBytes 4 k.data.linkStamp.toNat ++ beBytes 4 k.data.raceStamp.toNat ++
      beInt 3 k.data.x ++ beInt 3 k.data.y ++ beInt 3 k.data.z ++
      beInt 4 k.data.vx ++ beInt 4 k.data.vy ++ beInt 4 k.data.vz ++
      beBytes 2 k.data.heading.toNat ++ beInt 2 k.data.yaw ++ beBytes 1 k.data.laps ++
      beBytes 4 k.data.crossing.toNat ++ beBytes 2 k.data.appearance.toNat)

/-! ## Message slots -/

/-- A slot from its 32 bytes; none for a value outside its codes (R177). -/
def decodeSlot (b : List Byte) : Option Slot :=
  let b0 := byteAt b 0
  let kind := byteAt b 2
  if b0 % 4 = 3 || byteAt b 1 / 16 = 15 || 9 < kind || 14 < byteAt b 4 || 24 < byteAt b 5 then none
  else if b0 % 4 = 0 then some none
  else
    match kindOf kind with
    | none => none
    | some k =>
      some (some
        { answered := b0 % 4 = 2, relay := b0 / 16, cls := if bitOf b0 3 then .normal else .urgent,
          hold := bitOf b0 2, source := byteAt b 1 / 16, dest := byteAt b 1 % 16, kind := k,
          tag := byteAt b 3, outcome := byteAt b 4, len := byteAt b 5,
          payload := (b.drop 6).take 24 })

/-- A slot from the symbols received; none when its check fails (R7) or it carries a value outside
its codes (R177). -/
def parseSlot (syms : List RxSym) : Option Slot :=
  match goodPart 32 syms with
  | none => none
  | some b => decodeSlot b

/-- The 32 bytes of a slot with its check; an EMPTY slot is 30 bytes of 0 and its check. -/
def slotBytes : Slot → List Byte
  | none => withCheck (List.replicate 30 0)
  | some m =>
    withCheck
      (beBytes 1 (m.relay * 16 + (match m.cls with | .urgent => 0 | .normal => 8) + bitNum m.hold 2 +
          (if m.answered then 2 else 1)) ++
        beBytes 1 (m.source * 16 + m.dest) ++ beBytes 1 (kindCode m.kind) ++ beBytes 1 m.tag ++
        beBytes 1 m.outcome ++ beBytes 1 m.len ++ m.payload)

/-- A payload extended to the 24 payload bytes, unused bytes 0 (R63). -/
def padPayload (p : List Byte) : List Byte := (p ++ List.replicate 24 0).take 24

/-- The payload bytes that a slot carries. -/
def SlotMsg.body (m : SlotMsg) : List Byte := m.payload.take m.len

/-! ## Collect frames -/

/-- A collect header from its 13 bytes; none for a value outside its range (R177). R177 does not name a
forthcoming epoch of 0, and a header that carries it is valid (notes/assumptions/83.md). -/
def decodeCollectHeader (b : List Byte) : Option CollectHeader :=
  if 1 ≤ byteAt b 7 && byteAt b 7 ≤ 3 && 1 ≤ byteAt b 8 && byteAt b 8 ≤ 2 && byteAt b 9 ≤ 12 &&
      byteAt b 10 ≤ 1 then
    some { serial := BitVec.ofNat 48 (numAt b 0 6), epoch := byteAt b 6, attempt := byteAt b 7,
           pass := byteAt b 8, count := byteAt b 9, overflow := byteAt b 10 == 1 }
  else none

/-- A collect header from the symbols received; none when its check fails. -/
def parseCollectHeader (syms : List RxSym) : Option CollectHeader :=
  match goodPart 13 syms with
  | none => none
  | some b => decodeCollectHeader b

/-- The 13 bytes of a collect header with its check. -/
def collectHeaderBytes (h : CollectHeader) : List Byte :=
  withCheck
    (beBytes 6 h.serial.toNat ++ beBytes 1 h.epoch ++ beBytes 1 h.attempt ++ beBytes 1 h.pass ++
      beBytes 1 h.count ++ beBytes 1 (bitNum h.overflow 0))

/-- A collect entry from its 15 bytes; none for a value outside its codes (R177). R177 names the address 15;
every address above it, which no station has either, is handled as 15 is (notes/assumptions/76.md). -/
def decodeEntry (b : List Byte) : Option CollectEntry :=
  if byteAt b 0 < 15 && 1 ≤ byteAt b 7 && byteAt b 7 ≤ 4 && byteAt b 8 ≤ 2 then
    some { address := byteAt b 0, serial := BitVec.ofNat 48 (numAt b 1 6), role := byteAt b 7,
           seatCount := byteAt b 8, title := BitVec.ofNat 16 (numAt b 9 2),
           revision := BitVec.ofNat 16 (numAt b 11 2) }
  else none

/-- A collect entry from the symbols received; none when its check fails. -/
def parseEntry (syms : List RxSym) : Option CollectEntry :=
  match goodPart 15 syms with
  | none => none
  | some b => decodeEntry b

/-- The 15 bytes of a collect entry with its check. -/
def entryBytes (e : CollectEntry) : List Byte :=
  withCheck
    (beBytes 1 e.address ++ beBytes 6 e.serial.toNat ++ beBytes 1 e.role ++ beBytes 1 e.seatCount ++
      beBytes 2 e.title.toNat ++ beBytes 2 e.revision.toNat)

/-! ## Message payloads (notes/assumptions/17.md) -/

/-- The payload of a JOIN: address, seat index, title code, revision, player tag (R96). -/
def joinPayload (j : JoinRequest) : List Byte :=
  beBytes 1 j.station ++ beBytes 1 j.seat ++ beBytes 2 j.title.toNat ++ beBytes 2 j.revision.toNat ++
    (j.tag ++ List.replicate 3 0).take 3

/-- The join that a payload carries. Of a payload shorter than its items a number cut short is what its
bytes spell, and the tag is the bytes that stand there (notes/assumptions/63.md). -/
def joinOf (p : List Byte) : JoinRequest :=
  { station := byteAt p 0, seat := byteAt p 1, title := BitVec.ofNat 16 (numAt p 2 2),
    revision := BitVec.ofNat 16 (numAt p 4 2), tag := (p.drop 6).take 3 }

/-- The code of a table in a TABLE WRITE or TABLE READ payload. -/
def tableCode : TableName → Nat
  | .settings => 0 | .raceSetup => 1 | .grid => 2 | .unknown c => c

/-- The table that a code names. -/
def tableOf : Nat → TableName
  | 0 => .settings | 1 => .raceSetup | 2 => .grid | c => .unknown c

/-- The payload of a TABLE WRITE: table, start index, count, values (R174). -/
def tableWritePayload (t : TableName) (start : Nat) (values : List Nat) : List Byte :=
  beBytes 1 (tableCode t) ++ beBytes 1 start ++ beBytes 1 values.length ++ values.flatMap (beBytes 2)

/-- The payload of a TABLE READ: table, start index, count (R174). -/
def tableReadPayload (t : TableName) (start count : Nat) : List Byte :=
  beBytes 1 (tableCode t) ++ beBytes 1 start ++ beBytes 1 count

/-- The payload of a BULK SEGMENT: four bytes for channel, sequence number, END mark and total
length, then the data (R154). -/
def segmentPayload (channel sequence : Nat) (endMark : Bool) (total : Nat) (data : List Byte) :
    List Byte :=
  beBytes 2 (channel % 4 * 16384 + bitNum endMark 12 + sequence % 4096) ++ beBytes 2 total ++ data

/-- The channel, sequence number, END mark and total length of a BULK SEGMENT payload. -/
def segmentHead (p : List Byte) : Nat × Nat × Bool × Nat :=
  (numAt p 0 2 / 16384, numAt p 0 2 % 4096, bitOf (numAt p 0 2) 12, numAt p 2 2)

/-! ## Car Report command -/

/-- The arguments of a Car Report from the 36 bytes after its command code (layout after R177). -/
def carArgsOf (b : List Byte) : CarReportArgs :=
  { x := intAt b 1 4, y := intAt b 5 4, z := intAt b 9 4, vx := intAt b 13 4, vy := intAt b 17 4,
    vz := intAt b 21 4, heading := BitVec.ofNat 16 (numAt b 25 2), yaw := intAt b 27 2,
    laps := byteAt b 29, crossing := BitVec.ofNat 32 (numAt b 30 4),
    appearance := BitVec.ofNat 16 (numAt b 34 2) }

/-! ## Field Bundle -/

/-- The source codes of a Field Bundle. -/
def sourceCode : BundleSource → Nat
  | .none => 0 | .presented => 1 | .held => 2 | .standing => 3 | .own => 4

/-- The freshness codes of a Field Bundle. -/
def freshCode : Freshness → Nat
  | .none => 0 | .fresh => 1 | .stale => 2 | .gone => 3

/-- The 24 bytes of one car of a Field Bundle. Of a velocity that a block carries beyond 24 bits they hold the
low 24 (notes/assumptions/71.md). -/
def bundleCarBytes (c : BundleCar) : List Byte :=
  beBytes 1 (carStateCode c.state) ++ beBytes 1 (sourceCode c.source + freshCode c.fresh * 16) ++
    beInt 3 c.x ++ beInt 3 c.y ++ beInt 3 c.z ++ beBytes 2 c.heading.toNat ++
    beInt 3 c.vx ++ beInt 3 c.vy ++ beInt 3 c.vz ++ beBytes 1 c.laps ++
    beBytes 1 (c.placing + bitNum c.confirmed 4)

/-- The 208 bytes of a Field Bundle. -/
def bundleBytes (b : Bundle) : List Byte :=
  [0xCF, 0x40] ++ beBytes 4 b.number.toNat ++ beBytes 4 b.linkTime.toNat ++
    beBytes 4 b.raceTime.toNat ++
    beBytes 1 (phaseCode b.phase + bitNum b.held 3 + bitNum b.rep 4) ++ beBytes 1 b.dropped ++
    b.cars.flatMap bundleCarBytes

/-! ## Report sizes (notes/assumptions/6.md) -/

/-- The bytes of a Status reply's part: the fields of its rule by the packing of chapter 12, a list at its
longest (R168). -/
def statusSize : StatusData → Nat
  | .link .. => 70
  | .survey .. => 186
  | .time .. => 39
  | .slots .. => 46
  | .race .. => 104
  | .car .. => 29
  | .seats .. => 39
  | .ownReports .. => 82
  | .replica .. => 114
  | .bulk .. => 96
  | .port .. => 14
  | .settings .. => 42

/-- The bytes of a reply's result data: one for each code and count, two for each 16-bit value, four
for each time (R176). -/
def replyDataSize : ReplyData → Nat
  | .none => 0
  | .tag _ => 1
  | .stillHeld => 1
  | .values vs => 1 + 2 * vs.length
  | .indexed vs => 1 + 3 * vs.length
  | .car _ => 1
  | .bulk _ _ => 4
  | .protection _ _ => 2
  | .status d => statusSize d

/-- The size of a report frame in bytes, its length byte included (R166). The Field Bundle's 208 is
the spec's; the others count the fields of the rule that queues the report by R176's packing. -/
def reportSize : Report → Nat
  | .reply _ (.done d) => 3 + replyDataSize d
  | .reply _ (.taken d) => 3 + replyDataSize d
  | .reply _ (.refused _) => 4
  | .ring .. => 11
  | .survey .. => 23
  | .phase .. => 9
  | .seats .. => 19
  | .appearance .. => 7
  | .placing .. => 86
  | .go .. => 15
  | .attention .. => 6
  | .roll .. => 8
  | .referral .. => 14
  | .pollAnswer .. => 7
  | .pollComplete .. => 3
  | .bulkProgress .. => 10
  | .bulkDone .. => 6
  | .bulkFailedSend .. => 11
  | .bulkFailedReceive .. => 10
  | .bulkEnd .. => 7
  | .bulkAborted .. => 6
  | .bulkSegmentIn .. => 32
  | .outcome .. => 31
  | .gameIn .. => 31
  | .notice .. => 4
  | .bundle .. => 208

end Sys2Proof.Machine
end

