-- ==== Sys2Proof/Machine/Operands.lean ====
section
/-! DEFINITION. What the operands and tables of the part mean: the settings and race setup entries by
name and range, the ring map by address, the mirrors with the values an empty mirror reads as, and the
writes that wrap round a table. -/

namespace Sys2Proof.Machine

open Sys2Proof

/-- Clamp a programmed value into a range (Conventions). -/
def clamp (lo hi v : Nat) : Nat := min hi (max lo v)

/-- Saturate a result to a range (Conventions). -/
def saturate (lo hi v : Int) : Int := min hi (max lo v)

/-! ## Settings (R172) -/

/-- Settings entry `i`. -/
def setting (s : State) (i : Nat) : Nat := s.settings.entries.getD i 0

/-- The range of settings entry `i` (R172); entries 12 to 19 are read-only. -/
def settingRange : Nat → Nat × Nat
  | 0 => (0, 16) | 1 => (0, 1) | 2 => (0, 7) | 3 => (0, 7) | 4 => (0, 2) | 5 => (1, 255)
  | 6 => (0, 65535) | 7 => (1, 250) | 8 => (1, 16) | 9 => (0, 65535) | 10 => (0, 32767)
  | 11 => (100, 10000) | _ => (0, 65535)

/-- Entries 12 to 19 are read-only (R172). -/
def readOnly (i : Nat) : Bool := 12 ≤ i

/-- The groups of the settings entries (R172). -/
inductive SettingGroup where
  | roll
  | posting
  | presentation
  | fixed
deriving DecidableEq, Repr, Inhabited

/-- The group of settings entry `i` (R172). -/
def settingGroup : Nat → SettingGroup
  | 0 => .roll | 1 => .roll
  | 2 => .posting | 3 => .posting | 4 => .posting | 5 => .posting | 11 => .posting
  | 6 => .presentation | 7 => .presentation | 8 => .presentation | 9 => .presentation
  | 10 => .presentation
  | _ => .fixed

/-- The role stored by Configure. -/
def role (s : State) : Role := roleOf (setting s 13)

/-- The station address stored by Configure. -/
def address (s : State) : Nat := setting s 12

/-- The seat count stored by Configure. -/
def seatCount (s : State) : Nat := setting s 14

/-- The game signature stored by Configure: title code and revision. -/
def signature (s : State) : Half × Half :=
  (BitVec.ofNat 16 (setting s 15), BitVec.ofNat 16 (setting s 16))

/-- The factory serial, settings entries 17 to 19. -/
def ownSerial (s : State) : Serial :=
  BitVec.ofNat 48 (setting s 17 * 4294967296 + setting s 18 * 65536 + setting s 19)

/-- The receive idle limit in µs (entry 11, R158). -/
def idleLimitMicros (s : State) : Nat := setting s 11 * 1000

/-- The station is configured: it is in a ring state other than UNCONFIGURED (R8, R169). -/
def configured (s : State) : Bool := s.cyc.ring != .unconfigured

/-- The role is ANCHOR or SOLO. -/
def anchorRole (s : State) : Bool := role s == .anchor || role s == .solo

/-- The role is RACER or OBSERVER: the station is a node. -/
def nodeRole (s : State) : Bool := role s == .racer || role s == .observer

/-- The anchor ring states in which the anchor emits: SURVEYING, CYCLING, STALLED (R13). -/
def emitting (r : RingState) : Bool := r == .surveying || r == .cycling || r == .stalled

/-- The node ring states in which frames are taken (R8, R9). -/
def nodeTakes (r : RingState) : Bool :=
  r == .listening || r == .unmapped || r == .mapped || r == .lost

/-- The station is acting as anchor (R77): an ANCHOR or SOLO in SURVEYING, CYCLING or STALLED. -/
def actingAnchor (s : State) : Bool := anchorRole s && emitting s.cyc.ring

/-! ## Tables -/

/-- The range of race setup entry `i` (R88). -/
def setupRange : Nat → Nat × Nat
  | 0 => (1, 99) | 1 => (5, 120) | 2 => (0, 2) | 3 => (1, 30) | 4 => (5, 100) | 5 => (1, 8)
  | 6 => (0, 3) | 7 => (0, 1) | _ => (0, 1)

/-- Race setup entry `i` (R88). -/
def setup (s : State) (i : Nat) : Nat := s.race.setup.getD i 0

/-- The range of a grid entry: a car number 0 to 7, or 8 for none (R90). -/
def gridRange (_ : Nat) : Nat × Nat := (0, 8)

/-- Write values to given places of a table, each clamped into the range of its entry. -/
def writeAt (range : Nat → Nat × Nat) (table : List Nat) : List (Nat × Nat) → List Nat
  | [] => table
  | (i, v) :: rest => writeAt range (table.set i (clamp (range i).1 (range i).2 v)) rest

/-- The `n` consecutive places from a start index, wrapping at `size` (R89, R90, R173). -/
def wrapPlaces (size start n : Nat) : List Nat :=
  (List.range n).map fun k => (start % size + k) % size

/-- The first `n` settings places from a start index that are not read-only, wrapping from 19 to 0
(R173). -/
def writablePlaces (start n : Nat) : List Nat :=
  ((wrapPlaces 20 start 20).filter fun i => !readOnly i).take n

/-- The entries at given places. -/
def readAt (table : List Nat) (places : List Nat) : List Nat := places.map fun i => table.getD i 0

/-! ## The ring map and the mirrors -/

/-- The address at a position of a map, none where the map lists none. -/
def addrAt (m : RingMap) (p : Nat) : Option Nat :=
  let a := m.addr.getD p 15
  if a < 15 then some a else none

/-- The position at which a map lists an address. -/
def positionOf (m : RingMap) (a : Nat) : Option Nat :=
  (List.range 12).find? fun p => addrAt m p == some a

/-- A map lists an address. -/
def lists (m : RingMap) (a : Nat) : Bool := (positionOf m a).isSome

/-- The offset of a position (R32). -/
def offsetAt (m : RingMap) (p : Nat) : Nat := m.off.getD p 0

/-- A VACANT car's summary: owner 15 (layout after R176). -/
def vacantSummary : CarSummary :=
  { station := 15, seat := 0, state := .vacant, placing := 0, confirmed := false }

/-- The map in the mirrors; an empty mirror has none (R6). -/
def mirrorMap (s : State) : RingMap :=
  match s.cyc.mirrors with
  | none => RingMap.empty
  | some h => h.map

/-- The epoch in the mirrors; an empty mirror reads as 0 (R6). -/
def mirrorEpoch (s : State) : Nat :=
  match s.cyc.mirrors with
  | none => 0
  | some h => h.epoch

/-- The phase in the mirrors; an empty mirror reads as IDLE (R6). -/
def mirrorPhase (m : Option Header) : Phase :=
  match m with
  | none => .idle
  | some h => h.phase

/-- The held flag in the mirrors; an empty mirror reads as clear (R6). -/
def mirrorHeld (m : Option Header) : Bool :=
  match m with
  | none => false
  | some h => h.held

/-- The car table summary in the mirrors; an empty mirror shows every car VACANT (R6). -/
def mirrorSummary (m : Option Header) : List CarSummary :=
  match m with
  | none => List.replicate 8 vacantSummary
  | some h => h.summary

/-- The cycle period of a code, in µs (R88). -/
def periodMicros (code : Nat) : Nat := 1000 * 2 ^ (code % 4)

/-- The cycle period in the mirrors; an empty mirror reads as 2 ms (R6). -/
def mirrorPeriod (s : State) : Nat :=
  match s.cyc.mirrors with
  | none => 2000
  | some h => periodMicros h.periodCode

/-- The address at position 0 of the map in the mirrors (R57). -/
def mirrorAnchor (s : State) : Option Nat := addrAt (mirrorMap s) 0

/-- The position of this station in the map of the mirrors, that of the last valid header (DESIGN CHOICE,
notes/assumptions/89.md). -/
def mirrorPosition (s : State) : Option Nat := positionOf (mirrorMap s) (address s)

/-! ## The car table -/

/-- Car `c` of the car table. -/
def carAt (s : State) (c : Nat) : Car := s.race.cars.getD c Car.vacant

/-- The placing of a car: its 1-based position in the finish list, or 0 (R138). -/
def placingOf (l : List FinishEntry) (c : Nat) : Nat :=
  match l.findIdx? (fun e => e.car == c) with
  | none => 0
  | some i => i + 1

/-- The confirmed flag of a car (R138). -/
def confirmedOf (l : List FinishEntry) (c : Nat) : Bool :=
  l.any fun e => e.car == c && e.confirmed

/-- The summary of car `c` of the car table (R94). -/
def carSummary (r : RaceControl) (c : Nat) : CarSummary :=
  let k := r.cars.getD c Car.vacant
  match k.owner with
  | none => { vacantSummary with state := k.state, placing := placingOf r.finish c,
                                 confirmed := confirmedOf r.finish c }
  | some o => { station := o.station, seat := o.seat, state := k.state,
                placing := placingOf r.finish c, confirmed := confirmedOf r.finish c }

/-- The summary of the whole car table (R94). -/
def tableSummary (r : RaceControl) : List CarSummary := (List.range 8).map (carSummary r)

/-- Car `c` of a summary. -/
def summaryAt (l : List CarSummary) (c : Nat) : CarSummary := l.getD c vacantSummary

/-- The station's race phase (R42): the race controller's at an ANCHOR or SOLO, the mirrors' at a
node. -/
def racePhase (s : State) : Phase :=
  if anchorRole s then s.race.phase else mirrorPhase s.cyc.mirrors

/-- The set of held causes is non-empty: the race is held (R84). -/
def anyCause (c : HeldCauses) : Bool := c.fault || c.command

/-- The held flag of the station: at an anchor whether the held causes are non-empty, at a node the
held flag in the mirrors (R127). -/
def heldFlag (s : State) : Bool :=
  if anchorRole s then anyCause s.race.causes else mirrorHeld s.cyc.mirrors

/-- The summary the station sees: at an anchor the car table, at a node the mirrors' (R127). -/
def shownSummary (s : State) : List CarSummary :=
  if anchorRole s then tableSummary s.race else mirrorSummary s.cyc.mirrors

end Sys2Proof.Machine
end

