-- ==== Sys2Proof/Machine/Reports.lean ====
section
/-! DEFINITION. The bytes of the reports and replies of the cabinet port: each carries the fields named in the
rule that queues it, packed as chapter 12 says, one byte for each code and count and four for each time and
stamp, the most significant byte first (R163, R166, R168, R176, notes/assumptions/6.md,
notes/assumptions/7.md). -/

namespace Sys2Proof.Machine

open Sys2Proof

/-! ## Fields -/

/-- Bytes extended with 0 to `n`, or cut there. -/
def padTo (n : Nat) (b : List Byte) : List Byte := (b ++ List.replicate n 0).take n

/-- A flag: a byte of 0 or 1. -/
def flagByte (b : Bool) : Byte := if b then 1 else 0

/-- A number of one byte that may be absent. -/
def optByte : Option Nat → List Byte
  | none => [Config.absent]
  | some v => beBytes 1 v

/-- A number of `n` bytes that may be absent: a flag, and the number or 0. -/
def optBytes (n : Nat) : Option Nat → List Byte
  | none => 0 :: List.replicate n 0
  | some v => 1 :: beBytes n v

/-- A time or stamp: four bytes. -/
def timeBytes (t : Micros) : List Byte := beBytes 4 t.toNat

/-- A time or stamp that may be absent. -/
def optTime (t : Option Micros) : List Byte := optBytes 4 (t.map (·.toNat))

/-- Held flag and causes, at the bits of header byte 17. -/
def causesByte (held : Bool) (c : HeldCauses) : List Byte :=
  beBytes 1 (bitNum held 3 + bitNum c.fault 4 + bitNum c.command 5)

/-- A list with its count before it, at most `n` entries of `size` bytes. -/
def counted (n size : Nat) (l : List (List Byte)) : List Byte :=
  beBytes 1 l.length ++ padTo (n * size) l.flatten

/-- An outcome: ACCEPTED and DECLINED by their slot codes (R74). -/
def outcomeByte : MsgOutcome → Byte
  | .accepted _ => 1
  | .declined r => BitVec.ofNat 8 (declineCode r)
  | .lost => Config.lostCode

/-- The result payload of an outcome. -/
def outcomeResult : MsgOutcome → List Byte
  | .accepted p => p
  | .declined _ => []
  | .lost => []

/-- The class bit of a slot as a byte (chapter 12). -/
def classByte : MsgClass → Byte
  | .urgent => 0
  | .normal => 1

/-- A player tag: three characters. -/
def tagBytes (t : List Byte) : List Byte := padTo 3 t

/-- An owner; 15 and seat 0 stand for none, as in the car table summary. -/
def ownerBytes : Option Owner → List Byte
  | none => [15, 0]
  | some o => beBytes 1 o.station ++ beBytes 1 o.seat

/-- A seat record: state, car, player tag (R95). -/
def seatBytes : SeatRecord → List Byte
  | .unseated => [Config.seatStateCode 0, Config.absent, 0, 0, 0]
  | .requested t => Config.seatStateCode 1 :: Config.absent :: tagBytes t
  | .seated c t => Config.seatStateCode 2 :: beBytes 1 c ++ tagBytes t

/-- The data of a car block, in the order and widths of the block layout (chapter 12). -/
def carDataBytes (d : CarData) : List Byte :=
  timeBytes d.linkStamp ++ timeBytes d.raceStamp ++ beInt 3 d.x ++ beInt 3 d.y ++ beInt 3 d.z ++
    beInt 4 d.vx ++ beInt 4 d.vy ++ beInt 4 d.vz ++ beBytes 2 d.heading.toNat ++ beInt 2 d.yaw ++
    beBytes 1 d.laps ++ timeBytes d.crossing ++ beBytes 2 d.appearance.toNat

/-- Car data that may be absent: a flag and 40 bytes. -/
def optCarData : Option CarData → List Byte
  | none => 0 :: List.replicate 40 0
  | some d => 1 :: carDataBytes d

/-- The answer of a join: its outcome code and car, absent before the decision (R99). -/
def answerBytes : Option JoinAnswer → List Byte
  | none => [Config.absent, Config.absent]
  | some (.accepted c) => 1 :: beBytes 1 c
  | some (.declined r) => [BitVec.ofNat 8 (declineCode r), Config.absent]

/-- The reason of a failed send channel, with the reason of a DECLINED (R151). -/
def sendFailureBytes : SendFailure → List Byte
  | .declined r => [Config.sendFailureCode 0, BitVec.ofNat 8 (declineCode r)]
  | .lost => [Config.sendFailureCode 1, Config.absent]
  | .aborted => [Config.sendFailureCode 2, Config.absent]
  | .standby => [Config.sendFailureCode 3, Config.absent]
  | .deferred => [Config.sendFailureCode 4, Config.absent]

/-- The bit of a notice kind: its place in R167's list, from bit 0. -/
def noticeBit : NoticeKind → Nat
  | .phase => 0 | .seats => 1 | .placing => 2 | .go => 3 | .ring => 4 | .attention => 5 | .roll => 6
  | .referral => 7 | .poll => 8 | .bulk => 9 | .bundleOverrun => 10 | .messageDrop => 11

/-- A notice set: a bit for each kind (R167). -/
def noticeBytes (l : List NoticeKind) : List Byte := beBytes 2 (l.map fun k => 2 ^ noticeBit k).sum

/-- The protection groups in the order of R175, from bit 0. -/
def groupsNum (g : Groups) : Nat := bitNum g.roll 0 + bitNum g.posting 1 + bitNum g.presentation 2

/-- A finish list: car, placing, finish time and confirmed flag of each entry (R138, R149). -/
def finishBytes (l : List (PlacedCar × Micros)) : List Byte :=
  counted 8 7 (l.map fun k =>
    beBytes 1 k.1.car ++ beBytes 1 k.1.placing ++ timeBytes k.2 ++ [flagByte k.1.confirmed])

/-! ## The parts of Status (R168) -/

/-- The status of race time with its freeze cause (R38). -/
def raceStatusBytes : RaceStatus → List Byte
  | .zero => [Config.raceStatusCode 0, Config.freezeCode none]
  | .counting => [Config.raceStatusCode 1, Config.freezeCode none]
  | .waiting => [Config.raceStatusCode 2, Config.freezeCode none]
  | .frozen c => [Config.raceStatusCode 3, Config.freezeCode (some c)]

/-- The GO schedule with G (R38). -/
def goBytes : GoSchedule → List Byte
  | .none => Config.goScheduleCode 0 :: List.replicate 4 0
  | .armed g => Config.goScheduleCode 1 :: timeBytes g
  | .fired g => Config.goScheduleCode 2 :: timeBytes g

/-- The progress of an outstanding entry (R56). -/
def progressByte : Progress → Byte
  | .waiting => Config.progressCode 0
  | .reportPending _ _ => Config.progressCode 1

/-- An outstanding entry: kind, destination, tag, cycles waited, progress (R56). -/
def outstandingBytes (o : Outstanding) : List Byte :=
  beBytes 1 (kindCode o.kind) ++ beBytes 1 o.dest ++ beBytes 1 o.tag ++ beBytes 1 o.waited ++
    [progressByte o.progress]

/-- A car record with its lost-car timer (R77, R91). -/
def carBytes (k : Car) : List Byte :=
  beBytes 1 (carStateCode k.state) ++ ownerBytes k.owner ++ tagBytes k.tag ++ beBytes 1 k.laps ++
    timeBytes k.stamp ++ timeBytes k.crossing ++ optTime k.finish ++
    [(k.reason.map Config.retireCode).getD Config.absent] ++ optTime k.timer

/-- A join with its carrier (R99). -/
def referredBytes (j : JoinRequest) (carrier : Carrier) : List Byte :=
  beBytes 1 j.station ++ beBytes 1 j.seat ++ tagBytes j.tag ++ beBytes 2 j.title.toNat ++
    beBytes 2 j.revision.toNat ++
    (match carrier with
     | .own => [Config.carrierCode 0, 0, 0, 0]
     | .slot p q t => Config.carrierCode 1 :: (beBytes 1 p ++ beBytes 1 q ++ beBytes 1 t))

/-- The referral record, which only an anchor returns: state, join, carrier, time left, answer (R95,
R99). The time left stands in µs in 4 bytes (notes/assumptions/84.md). -/
def referralBytes : Option Referral → List Byte
  | none => [Config.absent]
  | some .free => [Config.referralStateCode 0]
  | some (.pending j c left) =>
    Config.referralStateCode 1 :: (referredBytes j c ++ beBytes 4 left ++ answerBytes none)
  | some (.decided j c a left) =>
    Config.referralStateCode 2 :: (referredBytes j c ++ beBytes 4 left ++ answerBytes (some a))

/-- The presentation state of a replica entry, with the report last used (R125). Each of the four residuals
takes 4 bytes, signed (notes/assumptions/84.md). -/
def presentationBytes : Option Presentation → List Byte
  | none => [0]
  | some q =>
    1 :: (carDataBytes q.used ++ beInt 4 q.rx ++ beInt 4 q.ry ++ beInt 4 q.rz ++ beInt 4 q.rh ++
      beInt 3 q.px ++ beInt 3 q.py ++ beInt 3 q.pz ++ beBytes 2 q.ph.toNat)

/-- The state of a send channel (R151). -/
def channelStateByte : ChannelState → Byte
  | .idle => Config.channelStateCode 0
  | .active => Config.channelStateCode 1
  | .done => Config.channelStateCode 2
  | .failed _ => Config.channelStateCode 3

/-- The failure reason of a send channel, absent in every state but FAILED (R151). -/
def channelFailureBytes : ChannelState → List Byte
  | .idle => [Config.absent, Config.absent]
  | .active => [Config.absent, Config.absent]
  | .done => [Config.absent, Config.absent]
  | .failed why => sendFailureBytes why

/-- What a send channel has outstanding (R151). -/
def channelOutBytes : Option SegmentOut → List Byte
  | none => [Config.channelOutCode 0, 0, 0, 0]
  | some (.segment n count) => Config.channelOutCode 1 :: (beBytes 2 n ++ beBytes 1 count)
  | some .abort => [Config.channelOutCode 2, 0, 0, 0]

/-- A send channel with its two flags, its buffer by the bytes that it holds. The fields stand in the order in
which R151 names them for Status: state, Armed, Done, abort pending mark, peer, L, remaining count, supplied
count, next sequence number, bytes buffered, segment outstanding, options, failure reason
(notes/assumptions/7.md). The options stand in one byte, END at bit 0 and EACH at bit 1
(notes/assumptions/74.md). -/
def channelBytes (c : SendChannel) (armed done : Bool) : List Byte :=
  [channelStateByte c.state, flagByte armed, flagByte done, flagByte c.abortPending] ++ beBytes 1 c.peer ++
    beBytes 2 c.total ++ beBytes 2 c.remaining ++ beBytes 2 c.supplied ++ beBytes 2 c.nextSeq ++
    beBytes 2 c.buffer.length ++ channelOutBytes c.out ++
    beBytes 1 (bitNum c.optEnd 0 + bitNum c.optEach 1) ++ channelFailureBytes c.state

/-- A receive entry with the time left on its timer in µs in 4 bytes, a unit and width of the model's choice
(notes/assumptions/84.md); FREE is a flag of 0 (R158). -/
def receiveBytes : Option ReceiveEntry → List Byte
  | none => List.replicate 13 0
  | some e =>
    1 :: (beBytes 1 e.source ++ beBytes 1 e.channel ++ beBytes 2 e.expected ++ beBytes 2 e.total ++
      beBytes 2 e.received ++ beBytes 4 (e.limit - e.idle))

/-- The state that a Status reply returns, packed (R168). -/
def statusBytes : StatusData → List Byte
  | .link rx tx byp ring mirrors epoch =>
    [Config.rxCode rx, Config.txCode tx, flagByte byp, Config.ringStateCode ring] ++
      (match mirrors with
       | none => 0 :: List.replicate 64 0
       | some h => 1 :: headerBytes h) ++ beBytes 1 epoch
  | .survey map epoch entries running surveyed =>
    map.addr.flatMap (beBytes 1) ++ map.off.flatMap (beBytes 1) ++ beBytes 1 epoch ++
      counted 12 13 (entries.map fun e => (entryBytes e).take 13) ++
      (match running with
       | none => [0, 0, 0]
       | some (attempt, pass) => 1 :: (beBytes 1 attempt ++ beBytes 1 pass)) ++ beBytes 1 surveyed
  | .time link linkStatus linkWait race raceStatus raceWait go pulse latch computing mark offset =>
    timeBytes link ++ [Config.linkStatusCode linkStatus] ++ beBytes 4 linkWait ++ timeBytes race ++
      raceStatusBytes raceStatus ++ beBytes 4 raceWait ++ goBytes go ++ [flagByte pulse] ++
      (match latch with
       | none => 0 :: List.replicate 8 0
       | some (l, r) => 1 :: (timeBytes l ++ timeBytes r)) ++ [flagByte computing] ++
      optBytes 1 (mark.map fun m => bitNum m 0) ++ optBytes 1 offset
  | .slots urgent normal outstanding starvation claim held =>
    beBytes 1 urgent ++ beBytes 1 normal ++ counted 4 5 (outstanding.map outstandingBytes) ++
      beBytes 1 starvation ++
      (match claim with
       | none => [0, 0, 0]
       | some (c, age) => 1 :: (beBytes 1 c ++ beBytes 1 age)) ++
      counted 6 3 (held.map fun h => beBytes 1 h.place ++ beBytes 1 h.source ++ beBytes 1 h.tag)
  | .race phase causes mark setup grid finish deadline =>
    beBytes 1 (phaseCode phase) ++ causesByte (anyCause causes) causes ++ [flagByte mark] ++
      setup.flatMap (beBytes 1) ++ grid.flatMap (beBytes 1) ++ finishBytes finish ++ optTime deadline
  | .car c record placing confirmed =>
    beBytes 1 c ++ carBytes record ++ beBytes 1 placing ++ [flagByte confirmed]
  | .seats records ready pending code leaving referral roll attention =>
    records.flatMap seatBytes ++ [flagByte ready, flagByte pending] ++ beBytes 1 code ++
      leaving.map flagByte ++ padTo 20 (referralBytes referral) ++ beBytes 2 roll.toNat ++
      beBytes 2 attention.toNat
  | .ownReports records => records.flatMap optCarData
  | .replica c entry =>
    beBytes 1 c ++ beBytes 1 (freshCode entry.fresh) ++ ownerBytes entry.owner ++ optCarData entry.data ++
      [flagByte entry.release] ++ presentationBytes entry.pres
  | .bulk send armed done recv =>
    ((send.zip (armed.zip done)).flatMap fun c => channelBytes c.1 c.2.1 c.2.2) ++ recv.flatMap receiveBytes
  | .port commandBytes reportFree notices cfull attn lock number dropped =>
    beBytes 2 commandBytes ++ beBytes 2 reportFree ++ noticeBytes notices ++
      [flagByte cfull, flagByte attn, flagByte lock] ++ timeBytes number ++ beBytes 1 dropped
  | .settings entries flag list =>
    entries.flatMap (beBytes 2) ++ [flagByte flag] ++ beBytes 1 (groupsNum list)

/-! ## Replies (R163, R165) -/

/-- The result data of a reply. -/
def replyDataBytes : ReplyData → List Byte
  | .none => []
  | .tag t => beBytes 1 t
  | .stillHeld => [1]
  | .values vs => beBytes 1 vs.length ++ vs.flatMap (beBytes 2)
  | .indexed vs => beBytes 1 vs.length ++ vs.flatMap fun v => beBytes 1 v.1 ++ beBytes 2 v.2
  | .car c => beBytes 1 c
  | .bulk buffered left => beBytes 2 buffered ++ beBytes 2 left
  | .protection flag list => flagByte flag :: beBytes 1 (groupsNum list)
  | .status d => statusBytes d

/-- The command code of Car Report (layout after R177). -/
def carReportCode : Byte := 0x20

/-- The code of a cabinet command: the spec gives the Car Report's. -/
def codeOf (c : Cmd) : Byte := if c = .carReport then carReportCode else Config.commandCode c

/-- The command code that a reply names. -/
def replyToByte : ReplyTo → Byte
  | .command c => codeOf c
  | .code b => b
  | .nothing => Config.noCommand

/-- The reason or result data of a reply. -/
def replyBodyBytes : ReplyBody → List Byte
  | .done d => replyDataBytes d
  | .taken d => replyDataBytes d
  | .refused r => [Config.refusalCode r]

/-! ## Report frames (R166) -/

/-- The kind of a report frame; the Field Bundle's frame is written whole by chapter 12. -/
def reportKind : Report → ReportKind
  | .reply _ (.done _) => .done
  | .reply _ (.taken _) => .taken
  | .reply _ (.refused _) => .refused
  | .ring .. => .ring
  | .survey .. => .survey
  | .phase .. => .phase
  | .seats .. => .seats
  | .appearance .. => .appearance
  | .placing .. => .placing
  | .go .. => .go
  | .attention .. => .attention
  | .roll .. => .roll
  | .referral .. => .referral
  | .pollAnswer .. => .pollAnswer
  | .pollComplete .. => .pollComplete
  | .bulkProgress .. => .bulkProgress
  | .bulkDone .. => .bulkDone
  | .bulkFailedSend .. => .bulkFailed
  | .bulkFailedReceive .. => .bulkFailed
  | .bulkEnd .. => .bulkEnd
  | .bulkAborted .. => .bulkAborted
  | .bulkSegmentIn .. => .bulkSegmentIn
  | .outcome .. => .outcome
  | .gameIn .. => .gameIn
  | .notice .. => .notice
  | .bundle .. => .notice

/-- The condition code and value of a RING report (R12). -/
def ringValue : RingCondition → List Byte
  | .linkUp => [Config.ringConditionCode 0]
  | .linkDown => [Config.ringConditionCode 1]
  | .listening => [Config.ringConditionCode 2]
  | .unmapped => [Config.ringConditionCode 3]
  | .mapped p => Config.ringConditionCode 4 :: beBytes 1 p
  | .standby => [Config.ringConditionCode 5]
  | .lost n => Config.ringConditionCode 6 :: beBytes 1 n
  | .cycling n => Config.ringConditionCode 7 :: beBytes 1 n
  | .stalled n => Config.ringConditionCode 8 :: beBytes 1 n
  | .surveying => [Config.ringConditionCode 9]
  | .anchorConflict serial => Config.ringConditionCode 10 :: beBytes 6 serial.toNat
  | .newcomer p => Config.ringConditionCode 11 :: beBytes 1 (phaseCode p)
  | .stallInPhase p => Config.ringConditionCode 12 :: beBytes 1 (phaseCode p)

/-- The shared address and the two serials of a SURVEY report (R30, R36). -/
def sharedBytes : Option (Nat × Serial × Serial) → List Byte
  | none => Config.absent :: List.replicate 12 0
  | some (a, x, y) => beBytes 1 a ++ beBytes 6 x.toNat ++ beBytes 6 y.toNat

/-- The outcome, SUCCESS 1 and FAILED 0, and the contents of a SURVEY report (R36). -/
def surveyBytes (r : SurveyReport) : List Byte :=
  [flagByte r.failure.isNone, Config.surveyCode r.failure] ++ beBytes 1 r.attempts ++ beBytes 1 r.epoch ++
    beBytes 1 r.n ++ beBytes 2 r.r ++ sharedBytes r.shared ++ beBytes 1 r.missing

/-- A car with its placing and confirmed flag (R149). -/
def placedBytes (k : PlacedCar) : List Byte :=
  beBytes 1 k.car ++ beBytes 1 k.placing ++ [flagByte k.confirmed]

/-- The code and pending mark that the outcome of a POLL carries, when it is ACCEPTED (R111). Where the result
payload is shorter than these two bytes a missing one reads as 0 (notes/assumptions/78.md). -/
def pollResult : MsgOutcome → List Byte
  | .accepted p => padTo 2 p
  | .declined _ => [Config.absent, 0]
  | .lost => [Config.absent, 0]

/-- A payload with its length: 24 bytes behind one (R69, R74). -/
def payloadBytes (p : List Byte) : List Byte := beBytes 1 p.length ++ padTo 24 p

/-- The contents of a report frame behind its kind, in the order of the rule that queues it (R166). A field that
R160 and R162 name apart from that list, the END mark of BULK SEGMENT IN and the side of BULK FAILED, stands
last (notes/assumptions/7.md). -/
def reportContents : Report → List Byte
  | .reply re body => replyToByte re :: replyBodyBytes body
  | .ring c ring epoch =>
    (ringValue c).take 1 ++ [Config.ringStateCode ring] ++ beBytes 1 epoch ++ (ringValue c).drop 1
  | .survey r => surveyBytes r
  | .phase phase held causes race event =>
    beBytes 1 (phaseCode phase) ++ causesByte held causes ++ timeBytes race ++ [Config.phaseEventCode event]
  | .seats cause seat outcome named records ready pending code =>
    [Config.seatsCauseCode cause] ++ optByte seat ++ [(outcome.map outcomeByte).getD Config.absent] ++
      optByte named ++ records.flatMap seatBytes ++ [flagByte ready, flagByte pending] ++ beBytes 1 code
  | .appearance car owner code => beBytes 1 car ++ ownerBytes (some owner) ++ beBytes 2 code.toNat
  | .placing cause changed list racing =>
    [Config.placingCauseCode cause] ++ counted 8 3 (changed.map placedBytes) ++ finishBytes list ++
      beBytes 1 racing
  | .go g link race late => timeBytes g ++ timeBytes link ++ timeBytes race ++ [flagByte late]
  | .attention raised field => beBytes 2 raised.toNat ++ beBytes 2 field.toNat
  | .roll result set cleared => beBytes 2 result.toNat ++ beBytes 2 set.toNat ++ beBytes 2 cleared.toNat
  | .referral condition station seat tag timeout answer =>
    [Config.referralConditionCode condition] ++ beBytes 1 station ++ beBytes 1 seat ++ tagBytes tag ++
      beBytes 4 timeout ++ answerBytes answer
  | .pollAnswer station tag outcome =>
    beBytes 1 station ++ beBytes 1 tag ++ [outcomeByte outcome] ++ pollResult outcome
  | .pollComplete code => beBytes 1 code
  | .bulkProgress channel peer sequence received remaining =>
    beBytes 1 channel ++ beBytes 1 peer ++ beBytes 2 sequence ++ beBytes 2 received ++ beBytes 2 remaining
  | .bulkDone channel peer total => beBytes 1 channel ++ beBytes 1 peer ++ beBytes 2 total
  | .bulkFailedSend channel peer reason accepted remaining =>
    beBytes 1 channel ++ beBytes 1 peer ++ sendFailureBytes reason ++ beBytes 2 accepted ++
      beBytes 2 remaining ++ [Config.sideCode 0]
  | .bulkFailedReceive source channel reason received total =>
    beBytes 1 source ++ beBytes 1 channel ++ [Config.receiveFailureCode reason] ++ beBytes 2 received ++
      beBytes 2 total ++ [Config.sideCode 1]
  | .bulkEnd source channel total endMark =>
    beBytes 1 source ++ beBytes 1 channel ++ beBytes 2 total ++ [flagByte endMark]
  | .bulkAborted source channel received => beBytes 1 source ++ beBytes 1 channel ++ beBytes 2 received
  | .bulkSegmentIn source channel sequence data endMark received total =>
    beBytes 1 source ++ beBytes 1 channel ++ beBytes 2 sequence ++ beBytes 1 data.length ++ padTo 20 data ++
      beBytes 2 received ++ beBytes 2 total ++ [flagByte endMark]
  | .outcome kind tag dest outcome =>
    beBytes 1 (kindCode kind) ++ beBytes 1 tag ++ beBytes 1 dest ++ [outcomeByte outcome] ++
      payloadBytes (outcomeResult outcome)
  | .gameIn source cls tag payload broadcast =>
    beBytes 1 source ++ [classByte cls] ++ beBytes 1 tag ++ payloadBytes payload ++ [flagByte broadcast]
  | .notice kinds => noticeBytes kinds
  | .bundle b => (bundleBytes b).drop 2

/-- The bytes of a report frame: the length byte counts the bytes after it (R166). -/
def reportFrame (r : Report) : List Byte :=
  match r with
  | .bundle b => bundleBytes b
  | r =>
    BitVec.ofNat 8 (reportSize r - 1) :: Config.reportKindCode (reportKind r) ::
      padTo (reportSize r - 2) (reportContents r)

/-- Byte `i` of a report frame. -/
def reportByteAt (r : Report) (i : Nat) : Byte := (reportFrame r).getD i 0

end Sys2Proof.Machine
end

