-- ==== Sys2Proof/Machine/CommandFormats.lean ====
section
/-! DEFINITION. The command that a command frame of the cabinet port spells: its code, and its arguments in
the order in which the rule of the command names them, packed as chapter 12 says (R163, R176,
notes/assumptions/8.md). Chapter 12 gives the Car Report's layout and code. -/

namespace Sys2Proof.Machine

open Sys2Proof

/-- The cabinet commands, in the order in which a code is looked up. -/
def allCommands : List Cmd :=
  [.carReport, .configure, .restart, .standby, .resumeRing, .status, .survey, .openGathering,
   .closeGathering, .startRace, .abortRace, .hold, .resume, .clearRace, .raceSetupWrite, .raceSetupRead,
   .gridWrite, .gridRead, .poll, .clearStations, .admitCar, .refuse, .join, .leave, .setReady,
   .requestAttention, .withdrawAttention, .localTrigger, .game, .bulkOpen, .bulkData, .bulkAbort,
   .tableWrite, .tableRead, .remoteTableWrite, .remoteTableRead, .protectOn, .protectOff,
   .protectionListWrite]

/-- The command that a code names; none where it names no command (R163). -/
def commandOfCode (code : Byte) : Option Cmd := allCommands.find? fun c => codeOf c == code

/-- The parts that Status names by a selector alone, and with a car number 0 where they take one. -/
def allParts : List PartName :=
  [.link, .survey, .time, .slots, .race, .car, .seats, .ownReports, .replica, .bulk, .port, .settings]

/-- The part of a Status command, from its selector and the byte behind it (R168). -/
def partOf (selector : Byte) (c : Nat) : StatusPart :=
  match allParts.find? fun p => Config.partCode p == selector with
  | none => .unknown selector.toNat
  | some .link => .link
  | some .survey => .survey
  | some .time => .time
  | some .slots => .slots
  | some .race => .race
  | some .car => .car c
  | some .seats => .seats
  | some .ownReports => .ownReports
  | some .replica => .replica c
  | some .bulk => .bulk
  | some .port => .port
  | some .settings => .settings

/-- The argument bytes of a Status command: the selector, and a car number for CAR and REPLICA. -/
def partLength : StatusPart → Nat
  | .car _ => 2
  | .replica _ => 2
  | _ => 1

/-- The 16-bit values of a write, two bytes each. -/
def valuesOf : List Byte → List Nat
  | a :: b :: rest => beNat [a, b] :: valuesOf rest
  | _ => []

/-- The values of a write behind `n` bytes. -/
def valuesFrom (n : Nat) (a : List Byte) : List Nat := valuesOf (a.drop n)

/-- The length of a write suits it: `n` bytes and then whole values. -/
def writeFits (n : Nat) (a : List Byte) : Bool := decide (n ≤ a.length) && (a.length - n) % 2 == 0

/-- The class that a byte of a Game command names, as the class bit of a slot does (R171). -/
def classOf : Nat → Option MsgClass
  | 0 => some .urgent
  | 1 => some .normal
  | _ => none

/-- The argument of Admit (R100). -/
def choiceOf (b : Byte) : CarChoice := if b = Config.anyCar then .any else .car b.toNat

/-- The length of a command's arguments is `n` bytes. -/
def argLength (n : Nat) (a : List Byte) : Bool := a.length == n

/-- The command with its arguments; `a` is the bytes behind the code (R163). The widths of the arguments, among
them the two bytes of Start Race's lead, are those of notes/assumptions/81.md. A frame in progress is none of
the command's bytes. The options of a Bulk Open stand in one byte, END at bit 0 and EACH at bit 1, and the
groups of a Protection List Write in one, ROLL, POSTING and PRESENTATION from bit 0 (notes/assumptions/74.md).
-/
def parseCommand (c : Cmd) (a : List Byte) : Instr :=
  match c with
  | .configure =>
    .configure (argLength 7 a) (byteAt a 0) (byteAt a 1) (byteAt a 2) (BitVec.ofNat 16 (numAt a 3 2))
      (BitVec.ofNat 16 (numAt a 5 2))
  | .restart => .restart (argLength 0 a)
  | .standby => .standby { fits := argLength 0 a, cut := none }
  | .resumeRing => .resumeRing (argLength 0 a)
  | .status =>
    .status (argLength (partLength (partOf (a.getD 0 0) (byteAt a 1))) a) (partOf (a.getD 0 0) (byteAt a 1))
  | .survey => .survey (argLength 0 a)
  | .openGathering => .openGathering (argLength 0 a)
  | .closeGathering => .closeGathering (argLength 0 a)
  | .startRace => .startRace (argLength 2 a) (numAt a 0 2)
  | .abortRace => .abortRace (argLength 0 a)
  | .hold => .hold (argLength 0 a)
  | .resume => .resume (argLength 0 a)
  | .clearRace => .clearRace (argLength 0 a)
  | .raceSetupWrite => .raceSetupWrite (writeFits 1 a) (byteAt a 0) (valuesFrom 1 a)
  | .raceSetupRead => .raceSetupRead (argLength 2 a) (byteAt a 0) (byteAt a 1)
  | .gridWrite => .gridWrite (writeFits 1 a) (byteAt a 0) (valuesFrom 1 a)
  | .gridRead => .gridRead (argLength 2 a) (byteAt a 0) (byteAt a 1)
  | .poll => .poll (argLength 1 a) (byteAt a 0)
  | .clearStations => .clearStations (argLength 0 a)
  | .admitCar => .admitCar (argLength 1 a) (choiceOf (a.getD 0 0))
  | .refuse => .refuse (argLength 0 a)
  | .join => .join (argLength 4 a) (byteAt a 0) (tagBytes (a.drop 1))
  | .leave => .leave (argLength 1 a) (byteAt a 0)
  | .setReady => .setReady (argLength 1 a) (byteAt a 0)
  | .requestAttention => .requestAttention (argLength 1 a) (byteAt a 0)
  | .withdrawAttention => .withdrawAttention (argLength 0 a)
  | .localTrigger => .localTrigger (argLength 0 a)
  | .carReport => .carReport (argLength 36 a) (byteAt a 0) (carArgsOf a)
  | .game =>
    .game (decide (3 ≤ a.length)) (byteAt a 0) (classOf (byteAt a 1)) (byteAt a 2) (a.drop 3)
  | .bulkOpen =>
    .bulkOpen (argLength 5 a) (byteAt a 0) (byteAt a 1) (numAt a 2 2) (bitOf (byteAt a 4) 0)
      (bitOf (byteAt a 4) 1)
  | .bulkData => .bulkData (decide (1 ≤ a.length)) (byteAt a 0) (a.drop 1)
  | .bulkAbort => .bulkAbort (argLength 1 a) (byteAt a 0)
  | .tableWrite => .tableWrite (writeFits 2 a) (tableOf (byteAt a 0)) (byteAt a 1) (valuesFrom 2 a)
  | .tableRead => .tableRead (argLength 3 a) (tableOf (byteAt a 0)) (byteAt a 1) (byteAt a 2)
  | .remoteTableWrite =>
    .remoteTableWrite (writeFits 3 a) (byteAt a 0) (tableOf (byteAt a 1)) (byteAt a 2) (valuesFrom 3 a)
  | .remoteTableRead =>
    .remoteTableRead (argLength 4 a) (byteAt a 0) (tableOf (byteAt a 1)) (byteAt a 2) (byteAt a 3)
  | .protectOn => .protectOn (argLength 0 a)
  | .protectOff => .protectOff (argLength 0 a)
  | .protectionListWrite =>
    .protectionListWrite (argLength 1 a)
      { roll := bitOf (byteAt a 0) 0, posting := bitOf (byteAt a 0) 1,
        presentation := bitOf (byteAt a 0) 2 } (decide (8 ≤ byteAt a 0))

/-- The command that a whole, undamaged command frame spells, UNKNOWN_COMMAND for a code that names none
(R163). -/
def commandIn (bytes : List Byte) : Instr :=
  match commandOfCode (bytes.getD 1 0) with
  | none => .unknownCommand (bytes.getD 1 0)
  | some c => parseCommand c (bytes.drop 2)

end Sys2Proof.Machine
end

