-- ==== Sys2Proof/Machine/Flags.lean ====
section
/-! DEFINITION. The pins and flags that follow from the state: the transmit source and BYP of a ring
state, CFULL, ATTN, GO, the room of the report FIFO, and the Armed and Done flags of a send channel. -/

namespace Sys2Proof.Machine

open Sys2Proof

/-- The transmit source of a ring state and receiver state (the table of R3). -/
def txFor (r : RingState) (rx : RxState) : TxSource :=
  match r with
  | .unconfigured => .fill
  | .standby => .fill
  | .surveying => .emit
  | .cycling => .emit
  | .stalled => .emit
  | .listening => if rx == .up then .forward else .fill
  | .unmapped => if rx == .up then .forward else .fill
  | .mapped => if rx == .up then .forward else .fill
  | .lost => if rx == .up then .forward else .fill
  | .deferred => if rx == .up then .forward else .fill

/-- The level of BYP: asserted while UNCONFIGURED, in STANDBY, and in every state of a SOLO station
(R18). -/
def bypFor (r : RingState) (role : Role) : Bool :=
  r == .unconfigured || r == .standby || role == .solo

/-- The bytes that the command FIFO holds (R165). -/
def commandBytes (p : CabinetPort) : Nat :=
  (p.frames.map fun f => f.bytes.length).sum +
    (match p.writing with
     | none => 0
     | some w => w.bytes.length)

/-- CFULL is asserted while the command FIFO holds 256 bytes (R165). -/
def cfull (s : State) : Bool := Config.commandFifoBytes ≤ commandBytes s.port

/-- The bytes that the report FIFO holds (R166). -/
def reportBytes (p : CabinetPort) : Nat := (p.reports.map reportSize).sum - p.headRead

/-- The bytes free in the report FIFO (R166). -/
def reportFree (s : State) : Nat := Config.reportFifoBytes - reportBytes s.port

/-- The report FIFO has room for a whole report (R166). -/
def roomFor (s : State) (r : Report) : Bool := reportSize r ≤ reportFree s

/-- ATTN is asserted while the report FIFO holds at least one whole report; a partly read report does
not count as whole (R166). -/
def attn (s : State) : Bool :=
  match s.port.reports with
  | [] => false
  | [_] => s.port.headRead == 0
  | _ => true

/-- The GO pin is asserted while the GO pulse runs (R50). -/
def goPin (s : State) : Bool := s.time.pulse.isSome

/-- The Armed flag of a send channel (R151). -/
def armed (c : SendChannel) : Bool := c.state == .active && !c.abortPending

/-- The Done flag of a send channel (R151). -/
def doneFlag (c : SendChannel) : Bool := c.state != .active

/-- Protection is in effect for a group: the group is in the list, and the flag is on or LOCK# is
asserted (R175). -/
def protectedGroup (u : SettingsUnit) (g : SettingGroup) : Bool :=
  (u.flag || u.lock) &&
    (match g with
     | .roll => u.list.roll
     | .posting => u.list.posting
     | .presentation => u.list.presentation
     | .fixed => false)

/-- A station answers the roll when it has a lane and its Ready flag equals its sense (R107). -/
def answersRoll (s : State) : Bool := setting s 0 < 16 && (s.seat.ready == (setting s 1 == 1))

/-- The bit of the station's roll lane (R107). -/
def rollBit (s : State) : Half := (1 : Half) <<< setting s 0

/-- The bit of an address in the attention field (layout after R176). -/
def attentionBit (a : Nat) : Half := (1 : Half) <<< a

end Sys2Proof.Machine
end

