-- ==== Sys2Proof/Machine/Ops.lean ====
section
/-! DEFINITION. The operations that every block shares: one update per block of the state, reports and
notices, replies, free values, the ring state and the receiver state, and the timebase. -/

namespace Sys2Proof.Machine

open Sys2Proof

/-! ## One update per block -/

/-- Replace `link` and leave every other block. -/
def State.withLink (s : State) (v : LinkPort) : State := { s with link := v }

/-- Replace `cyc` and leave every other block. -/
def State.withCyc (s : State) (v : CycleProc) : State := { s with cyc := v }

/-- Replace `survey` and leave every other block. -/
def State.withSurvey (s : State) (v : SurveyUnit) : State := { s with survey := v }

/-- Replace `time` and leave every other block. -/
def State.withTime (s : State) (v : Timebase) : State := { s with time := v }

/-- Replace `slots` and leave every other block. -/
def State.withSlots (s : State) (v : SlotEngine) : State := { s with slots := v }

/-- Replace `race` and leave every other block. -/
def State.withRace (s : State) (v : RaceControl) : State := { s with race := v }

/-- Replace `seat` and leave every other block. -/
def State.withSeat (s : State) (v : SeatUnit) : State := { s with seat := v }

/-- Replace `replica` and leave every other block. -/
def State.withReplica (s : State) (v : List ReplicaEntry) : State := { s with replica := v }

/-- Replace `fieldNumber` and leave every other block. -/
def State.withFieldNumber (s : State) (v : Micros) : State := { s with fieldNumber := v }

/-- Replace `dropped` and leave every other block. -/
def State.withDropped (s : State) (v : Nat) : State := { s with dropped := v }

/-- Replace `bulk` and leave every other block. -/
def State.withBulk (s : State) (v : BulkUnit) : State := { s with bulk := v }

/-- Replace `port` and leave every other block. -/
def State.withPort (s : State) (v : CabinetPort) : State := { s with port := v }

/-- Replace `settings` and leave every other block. -/
def State.withSettings (s : State) (v : SettingsUnit) : State := { s with settings := v }

/-- Replace `freeCount` and leave every other block. -/
def State.withFreeCount (s : State) (v : Nat) : State := { s with freeCount := v }

/-- Replace `pending` and leave every other block. -/
def State.withPending (s : State) (v : List Instr) : State := { s with pending := v }

/-! ## Free values -/

/-- A free number, and the state with the next one due. -/
def freeValue (s : State) : Nat × State :=
  (Config.freeNat s.freeCount, s.withFreeCount (s.freeCount + 1))

/-- A free player tag of three characters, and the state with the next one due. -/
def freePlayerTag (s : State) : List Byte × State :=
  let t := Config.freeTag s.freeCount
  ([t.1, t.2.1, t.2.2], s.withFreeCount (s.freeCount + 1))

/-! ## Reports and notices (R164, R166, R167) -/

/-- Place a report at the tail of the report FIFO. -/
def placeReport (r : Report) (s : State) : State :=
  s.withPort { s.port with reports := s.port.reports ++ [r] }

/-- The notice kinds in the order of R167. -/
def allNotices : List NoticeKind :=
  [.phase, .seats, .placing, .go, .ring, .attention, .roll, .referral, .poll, .bulk, .bundleOverrun,
   .messageDrop]

/-- Record a notice: each kind is in the set at most once (R167). -/
def insertNotice (k : NoticeKind) (l : List NoticeKind) : List NoticeKind :=
  allNotices.filter fun n => n == k || l.contains n

/-- Record a notice in the notice set. -/
def recordNotice (k : NoticeKind) (s : State) : State :=
  s.withPort { s.port with notices := insertNotice k s.port.notices }

/-- The notice kind of each event report (the table of R166); none for a report of another class. -/
def noticeOf : Report → Option NoticeKind
  | .ring .. => some .ring
  | .survey .. => some .ring
  | .phase .. => some .phase
  | .seats .. => some .seats
  | .appearance .. => some .seats
  | .placing .. => some .placing
  | .go .. => some .go
  | .attention .. => some .attention
  | .roll .. => some .roll
  | .referral .. => some .referral
  | .pollAnswer .. => some .poll
  | .pollComplete .. => some .poll
  | .bulkProgress .. => some .bulk
  | .bulkDone .. => some .bulk
  | .bulkFailedSend .. => some .bulk
  | .bulkFailedReceive .. => some .bulk
  | .bulkEnd .. => some .bulk
  | .bulkAborted .. => some .bulk
  | .reply .. => none
  | .outcome .. => none
  | .gameIn .. => none
  | .bulkSegmentIn .. => none
  | .notice .. => none
  | .bundle .. => none

/-- Queue an event report: it is recorded as its notice when the report FIFO lacks room for it or the
notice set is not empty, and placed otherwise (R167). -/
def queueEvent (r : Report) (s : State) : State :=
  match noticeOf r with
  | none => s
  | some k => if s.port.notices.isEmpty && roomFor s r then placeReport r s else recordNotice k s

/-- Queue a RING report with a condition, the ring state and the epoch in the mirrors (R12). -/
def queueRing (c : RingCondition) (s : State) : State :=
  queueEvent (.ring c s.cyc.ring (mirrorEpoch s)) s

/-- Give a reply: placed when the report FIFO has room for it, and waiting otherwise (R164). -/
def giveReply (re : ReplyTo) (body : ReplyBody) (s : State) : State :=
  if roomFor s (.reply re body) then placeReport (.reply re body) s
  else s.withPort { s.port with waiting := some (.reply re body) }

/-! ## Ring state, receiver state and what follows them (R2, R3, R18) -/

/-- Enter a ring state: the transmit source and BYP follow it (R3, R18). -/
def setRing (r : RingState) (s : State) : State :=
  (s.withCyc { s.cyc with ring := r }).withLink
    { s.link with tx := txFor r s.link.rx, byp := bypFor r (role s) }

/-- The receiver becomes UP or DOWN: the transmit source follows it, and the RING report LINK UP or
LINK DOWN is queued (R2, R3). -/
def setReceiver (rx : RxState) (fill err : Nat) (s : State) : State :=
  queueRing (if rx == .up then .linkUp else .linkDown)
    (s.withLink
      { s.link with rx := rx, fillRun := fill, errorRun := err, tx := txFor s.cyc.ring rx })

/-- The µs in which the loop hands a frame of `n` data bytes back whole: 2 byte times of delay and one byte
time of 0.4 µs each for START, END and every data byte, rounded up (R4, R19, notes/assumptions/54.md). -/
def loopMicros (n : Nat) : Nat := (2 * (n + 4) + 4) / 5

/-- What the loop holds after frames have been sent: the looped one among them, or what it held (R19). -/
def loopAfter (l : List OutFrame) (held : Option LoopFrame) : Option LoopFrame :=
  match l.find? (·.looped) with
  | none => held
  | some f => some { kind := f.kind, symbols := f.symbols, left := loopMicros f.symbols.length }

/-- The frames that a command puts on the link output, or into the internal loop (R3, R19). -/
def sendFrames (l : List OutFrame) (s : State) : State :=
  s.withLink { s.link with out := l, loop := loopAfter l s.link.loop }

/-- One symbol heard between frames: in DOWN a FILL symbol adds 1 to the fill run and any other sets it to 0;
in UP a code error adds 1 to the error run and any other sets it to 0. At 64 and at 8 the receiver changes
(R2). -/
def hearSymbol (x : GapSymbol) (s : State) : State :=
  match s.link.rx, x with
  | .down, .fill =>
    if 63 ≤ s.link.fillRun then setReceiver .up 64 0 s
    else s.withLink { s.link with fillRun := s.link.fillRun + 1 }
  | .down, _ => s.withLink { s.link with fillRun := 0 }
  | .up, .codeError =>
    if 7 ≤ s.link.errorRun then setReceiver .down 0 0 s
    else s.withLink { s.link with errorRun := s.link.errorRun + 1 }
  | .up, _ => s.withLink { s.link with errorRun := 0 }

/-- The symbols of a gap, in the order heard (R2). -/
def hearGap (gap : List GapSymbol) (s : State) : State := gap.foldl (fun s x => hearSymbol x s) s

/-- A frame has been heard: its END, or the START that ended it, is a valid symbol, so that in UP the run of
code errors is 0; in DOWN its START sets the fill run to 0, and no frame is taken (R2). -/
def heard (s : State) : State :=
  if s.link.rx = .up then s.withLink { s.link with errorRun := 0 }
  else s.withLink { s.link with fillRun := 0 }

/-! ## The timebase (R38 to R50) -/

/-- The race status that counts, or TOP when the count stands at the top (R42). -/
def countingAt (race : Micros) : RaceStatus :=
  if race.toNat = topMicros then .frozen .top else .counting

/-- Race time set to a count, saturating at the top (R42), with a status for a count below it. A wait that was
running is over, with nothing remaining of it (DESIGN CHOICE, notes/assumptions/88.md). -/
def setRaceTime (v : Nat) (st : RaceStatus) (t : Timebase) : Timebase :=
  if topMicros ≤ v then
    { t with race := BitVec.ofNat 32 topMicros, raceWait := 0,
             raceStatus := match st with
               | .counting => .frozen .top
               | .waiting => .frozen .top
               | other => other }
  else { t with race := BitVec.ofNat 32 v, raceWait := 0, raceStatus := st }

/-- Race time 0 with the status ZERO (R43, R44). That the race wait remaining becomes 0 with it is the model's
choice where R38 does not give it (DESIGN CHOICE, notes/assumptions/88.md). -/
def zeroRace (t : Timebase) : Timebase := { t with race := 0, raceStatus := .zero, raceWait := 0 }

/-- Race time held at its value with a freeze cause (R42, R43, R44). That a WAITING race time which freezes
keeps nothing of its wait is the model's choice: R38 gives the race wait remaining as 0 only at reset, Restart
and Standby (DESIGN CHOICE, notes/assumptions/88.md). -/
def freezeRace (c : FreezeCause) (t : Timebase) : Timebase :=
  { t with raceStatus := .frozen c, raceWait := 0 }

/-- Race time frozen by the ring state: LOST, NOT MAPPED, STANDBY or DEFERRED. A ZERO stays ZERO: so R38 and
R44 say of a node, and of an anchor that enters DEFERRED it is the model's reading of R42 beside R43
(notes/assumptions/57.md). HELD and RESULTS come first in the order of causes (R42,
notes/assumptions/19.md). -/
def freezeByRing (c : FreezeCause) (t : Timebase) : Timebase :=
  match t.raceStatus with
  | .zero => t
  | .frozen .held => t
  | .frozen .results => t
  | .counting => freezeRace c t
  | .waiting => freezeRace c t
  | .frozen _ => freezeRace c t

/-- Race time runs again from its value (R43), with nothing remaining of a wait (notes/assumptions/88.md). -/
def resumeRace (t : Timebase) : Timebase :=
  { t with raceStatus := countingAt t.race, raceWait := 0 }

/-- The µs of a GO pulse (R50). -/
def pulseMicros : Nat := 2000

/-- Start the GO pulse, or start its 2 ms again (R50). -/
def startPulse (t : Timebase) : Timebase := { t with pulse := some pulseMicros }

/-- The schedule's G, if it is ARMED or FIRED. -/
def goTimeOf : GoSchedule → Option Micros
  | .none => none
  | .armed g => some g
  | .fired g => some g

/-- Fire: the schedule becomes FIRED, the GO pulse starts, race time is set, and a GO report is
queued whose late flag says that race time was set above 0 (R48, R50). -/
def fireGo (g : Micros) (v : Nat) (st : RaceStatus) (s : State) : State :=
  let t := startPulse (setRaceTime v st { s.time with go := .fired g })
  queueEvent (.go g t.link t.race (decide (0 < t.race.toNat))) (s.withTime t)

/-- Link time after `d` µs: a wait that ends within them leaves the rest to the count. A wait that ends
with them is left at 0 for LINK_WAIT_END (R38). -/
def elapseLink (d : Nat) (t : Timebase) : Timebase :=
  match t.linkStatus with
  | .counting => { t with link := t.link + BitVec.ofNat 32 d }
  | .waiting =>
    if d ≤ t.linkWait then { t with linkWait := t.linkWait - d }
    else { t with link := t.link + BitVec.ofNat 32 (d - t.linkWait), linkStatus := .counting, linkWait := 0 }
  | .frozen => t

/-- Race time counts `d` µs on; beyond the top it stands there, FROZEN with the cause TOP (R42), with nothing
remaining of a wait (notes/assumptions/88.md). -/
def countRace (d : Nat) (t : Timebase) : Timebase :=
  { t with race := BitVec.ofNat 32 (min topMicros (t.race.toNat + d)), raceWait := 0,
           raceStatus := if topMicros < t.race.toNat + d then .frozen .top else .counting }

/-- Race time after `d` µs: a wait that ends within them leaves the rest to the count. A wait that ends with
them, or a count that reaches the top with them, is left to its own event (R38, R42). -/
def elapseRace (d : Nat) (t : Timebase) : Timebase :=
  match t.raceStatus with
  | .counting => { countRace d t with raceWait := t.raceWait }
  | .waiting =>
    if d ≤ t.raceWait then { t with raceWait := t.raceWait - d } else countRace (d - t.raceWait) t
  | .zero => t
  | .frozen _ => t

/-- The GO pulse after `d` µs: a pulse that ends within them is idle, and one that ends with them is left at
0 for GO_PULSE_END (R50). -/
def elapsePulse (d : Nat) : Option Nat → Option Nat
  | none => none
  | some left => if d ≤ left then some (left - d) else none

/-- The timebase after `d` µs: both counts, the GO pulse and the computation in progress. -/
def elapseTime (d : Nat) (t : Timebase) : Timebase :=
  let u := elapseRace d (elapseLink d t)
  { u with pulse := elapsePulse d u.pulse,
           computation := u.computation.map fun c => { c with elapsed := c.elapsed + d } }

/-- The referral record after `d` µs: its timeout runs in every ring state but DEFERRED (R99). -/
def elapseReferral (d : Nat) (ring : RingState) (r : Referral) : Referral :=
  match r with
  | .free => .free
  | .decided j c a left => .decided j c a left
  | .pending j c left => if ring == .deferred then .pending j c left else .pending j c (left - d)

/-- `d` µs pass: every count that the spec runs on the crystal goes on by `d`
(notes/assumptions/1.md, notes/assumptions/2.md). -/
def elapse (d : Nat) (s : State) : State :=
  let s1 := s.withTime (elapseTime d s.time)
  let s2 := s1.withCyc { s.cyc with silence := s.cyc.silence.map (· + d),
                                    nextBoundary := s.cyc.nextBoundary.map (· - d) }
  let s3 := s2.withRace { s.race with referral := elapseReferral d s.cyc.ring s.race.referral }
  let s4 := s3.withLink
    { s.link with loop := s.link.loop.map fun f => { f with left := f.left - d } }
  s4.withBulk { s.bulk with recv := s.bulk.recv.map fun e => e.map fun r => { r with idle := r.idle + d } }

/-! ## The command that a row of the cabinet port answers -/

/-- The first test that fails gives the refusal. -/
def firstRefusal : List (Bool × RefusalReason) → Option RefusalReason
  | [] => none
  | (ok, r) :: rest => if ok then firstRefusal rest else some r

/-- Take a command that passes its tests, and refuse it with the reason of the first test that it
fails otherwise, with no other effect. -/
def tested (tests : List (Bool × RefusalReason)) (act : State → State × ReplyBody) (s : State) :
    State × ReplyBody :=
  match firstRefusal tests with
  | some r => (s, .refused r)
  | none => act s

/-- A frame of the command FIFO that is neither damaged nor empty. -/
def soundFrame (f : PortFrame) : Bool := !f.damaged && 1 < f.bytes.length

/-- A command can be taken: no reply waits (R164), and the oldest frame in the command FIFO, if there
is one, is neither damaged nor empty (R163). -/
def canTake (s : State) : Bool :=
  s.port.waiting.isNone &&
    (match s.port.frames with
     | [] => true
     | f :: _ => soundFrame f)

/-- The oldest frame leaves the command FIFO as its command is taken. -/
def dropFrame (s : State) : State := s.withPort { s.port with frames := s.port.frames.tail }

/-- A command of the cabinet port is taken: its frame leaves the command FIFO, it is acted on, and its
reply is given. A command that cannot be taken yet changes nothing (notes/assumptions/10.md). -/
def takeCommand (c : Cmd) (act : State → State × ReplyBody) (s : State) : State :=
  if canTake s then
    let r := act (dropFrame s)
    giveReply (.command c) r.2 r.1
  else s

/-- The tests that every command but Configure and Status starts with: the station is configured
(R169), and the length of the frame suits the command (R163). -/
def baseTests (fits : Bool) (s : State) : List (Bool × RefusalReason) :=
  [(configured s, .notConfigured), (fits, .malformed)]

end Sys2Proof.Machine
end

