-- ==== Sys2Proof/Machine/SeatOps.lean ====
section
/-! DEFINITION. The seat unit: outcomes of JOIN and LEAVE, the seat mirror, the SEATS report, the copy of
CLEAR STATIONS (chapter 06), and the replica store's part of the header (R119, R121). -/

namespace Sys2Proof.Machine

open Sys2Proof

/-- Seat record `k` (R95). -/
def seatAt (s : State) (k : Nat) : SeatRecord := s.seat.seats.getD k .unseated

/-- Set seat record `k`. -/
def setSeat (k : Nat) (r : SeatRecord) (s : State) : State :=
  s.withSeat { s.seat with seats := s.seat.seats.set k r }

/-- The car that a result payload of a JOIN or LEAVE names, car 8 naming none (R98, R105). -/
def namedCar : MsgOutcome → Option Nat
  | .accepted p =>
    match p with
    | [] => none
    | b :: _ => if b.toNat < 8 then some b.toNat else none
  | .declined _ => none
  | .lost => none

/-- Queue a SEATS report with the seat records, Ready flag and attention as they stand (R106). -/
def queueSeats (cause : SeatsCause) (seat : Option Nat) (o : Option MsgOutcome) (named : Option Nat)
    (s : State) : State :=
  queueEvent
    (.seats cause seat o named s.seat.seats s.seat.ready s.seat.attentionPending s.seat.attentionCode)
    s

/-- What a JOIN outcome makes of the seat record it concerns (the table of R103). An ACCEPTED outcome whose
payload names no car 0 to 7 leaves a REQUESTED seat UNSEATED (notes/assumptions/62.md). -/
def seatAfterJoin (o : MsgOutcome) (r : SeatRecord) : SeatRecord :=
  match r with
  | .unseated => .unseated
  | .seated c t => .seated c t
  | .requested t =>
    match namedCar o with
    | some c => .seated c t
    | none => .unseated

/-- The seat unit acts on a JOIN outcome and queues its SEATS report (R103). -/
def joinOutcome (k : Nat) (o : MsgOutcome) (s : State) : State :=
  queueSeats .joinOutcome (some k) (some o) (namedCar o) (setSeat k (seatAfterJoin o (seatAt s k)) s)

/-- The seat unit acts on a LEAVE outcome: a SEATS report, and no seat changes (R105). -/
def leaveOutcome (k : Nat) (o : MsgOutcome) (s : State) : State :=
  queueSeats .leaveOutcome (some k) (some o) (namedCar o) s

/-- A summary shows car `c` owned by a station and seat, in any state but VACANT (R104). -/
def showsOwned (l : List CarSummary) (c station seat : Nat) : Bool :=
  let k := summaryAt l c
  k.state != .vacant && k.station == station && k.seat == seat

/-- The seat record after the release step of the seat mirror (R104). -/
def mirrorRelease (l : List CarSummary) (station k : Nat) (r : SeatRecord) : SeatRecord :=
  match r with
  | .seated c t => if showsOwned l c station k then .seated c t else .unseated
  | .unseated => .unseated
  | .requested t => .requested t

/-- The car that a summary shows owned by a station and seat. -/
def ownedCar (l : List CarSummary) (station k : Nat) : Option Nat :=
  (List.range 8).find? fun c => showsOwned l c station k

/-- The seat mirror on one seat: release, then take; a changed seat queues one SEATS report, which has no
outcome and so names no car (R104, R106). A seat taken from UNSEATED has no player tag of its own: its tag is
free (notes/assumptions/15.md). -/
def mirrorSeat (l : List CarSummary) (k : Nat) (s : State) : State :=
  let before := seatAt s k
  let released := mirrorRelease l (address s) k before
  match ownedCar l (address s) k, released with
  | some c, .unseated =>
    let t := freePlayerTag s
    queueSeats .mirror (some k) none none (setSeat k (.seated c t.1) t.2)
  | some c, .requested t => queueSeats .mirror (some k) none none (setSeat k (.seated c t) s)
  | _, r =>
    if r = before then s else queueSeats .mirror (some k) none none (setSeat k r s)

/-- The seat mirror: the seats below the seat count are compared with a summary (R104). -/
def mirrorSeats (l : List CarSummary) (s : State) : State :=
  (List.range (seatCount s)).foldl (fun s k => mirrorSeat l k s) s

/-! ## The replica store (R118 to R124) -/

/-- Entry `c` of the replica store. -/
def entryAt (s : State) (c : Nat) : ReplicaEntry := s.replica.getD c ReplicaEntry.empty

/-- The running field computation will write nothing into a cleared entry (R127). -/
def forgetEntry (c : Nat) (t : Timebase) : Timebase :=
  { t with computation := t.computation.map fun k => { k with live := k.live.set c false } }

/-- Clear entry `c`: NONE, with no owner, data or presentation state (R118, R125). -/
def clearEntry (c : Nat) (s : State) : State :=
  (s.withReplica (s.replica.set c ReplicaEntry.empty)).withTime (forgetEntry c s.time)

/-- Clear every entry (R112, R124). -/
def clearReplica (s : State) : State := (List.range 8).foldl (fun s c => clearEntry c s) s

/-- Set entry `c` by the state and owner that a summary shows for car `c` (the table of R119). -/
def summarySetEntry (l : List CarSummary) (c : Nat) (s : State) : State :=
  let k := summaryAt l c
  let e := entryAt s c
  if k.state = .vacant then clearEntry c s
  else if k.station = address s then clearEntry c s
  else if e.fresh ≠ .none ∧ e.owner ≠ some { station := k.station, seat := k.seat } then clearEntry c s
  else if k.state = .retired ∨ k.state = .unplaced then
    if e.fresh = .none then s else s.withReplica (s.replica.set c { e with fresh := .gone })
  else if e.fresh = .gone then clearEntry c s
  else s

/-- Set every entry by a summary (R119). -/
def summarySet (l : List CarSummary) (s : State) : State :=
  (List.range 8).foldl (fun s c => summarySetEntry l c s) s

/-- Set the release mark of every entry that is not NONE (R121). -/
def setReleaseMarks (s : State) : State :=
  s.withReplica (s.replica.map fun e => if e.fresh = .none then e else { e with release := true })

/-- The replica store takes block `c` when the conditions of R120 hold; `l` is the summary of the
frame's header, or the car table's at the anchor. An APPEARANCE report follows by R123. -/
def takeBlock (l : List CarSummary) (c : Nat) (syms : List RxSym) (s : State) : State :=
  match parseBlock syms with
  | none => s
  | some b =>
    let k := summaryAt l c
    let e := entryAt s c
    let later : Bool :=
      match e.data with
      | none => true
      | some d => e.release || decide (0 < signedDiff b.data.linkStamp d.linkStamp)
    if b.valid ∧ b.car = c ∧ b.station < 15 ∧ k.station ≠ address s ∧
        (k.state = .entered ∨ k.state = .racing ∨ k.state = .finished) ∧
        b.station = k.station ∧ b.seat = k.seat ∧ later then
      let o : Owner := { station := b.station, seat := b.seat }
      let e' : ReplicaEntry :=
        { e with fresh := if e.fresh = .none then .fresh else e.fresh, owner := some o,
                 data := some b.data, release := false }
      let s' := s.withReplica (s.replica.set c e')
      if e.fresh = .none ∨ e.data.map (·.appearance) ≠ some b.data.appearance then
        queueEvent (.appearance c o b.data.appearance) s'
      else s'
    else s

/-- A copy of CLEAR STATIONS: the Ready flag becomes 0, the attention request not pending, the replica
store is cleared, and a SEATS report with the cause CLEAR is queued (R112). -/
def clearStationsCopy (s : State) : State :=
  queueSeats .clear none none none
    (clearReplica (s.withSeat { s.seat with ready := false, attentionPending := false }))

end Sys2Proof.Machine
end

