-- ==== Sys2Proof/Machine/Presentation.lean ====
section
/-! DEFINITION. The presentation unit: extrapolation, corrected residuals, snap and decay, the treatment of
each car in a field computation, and the Field Bundle (chapter 08, R178). -/

namespace Sys2Proof.Machine

open Sys2Proof

/-! ## Arithmetic (R128 to R133) -/

/-- A quotient rounded to the nearest integer, halves away from zero (R129). -/
def roundAway (n : Int) (d : Nat) : Int :=
  if n < 0 then -(((2 * n.natAbs + d) / (2 * d) : Nat) : Int) else (((2 * n.natAbs + d) / (2 * d) : Nat) : Int)

/-- The range of a position, in mm (R113). -/
def saturatePosition (v : Int) : Int := saturate (-8388608) 8388607 v

/-- The range of a velocity, in mm/s (R113). -/
def saturateVelocity (v : Int) : Int := saturate (-262144) 262143 v

/-- The presentation instant T_p (R128). -/
def presentInstant (latched : Micros) (lookAhead : Nat) : Micros := latched + BitVec.ofNat 32 lookAhead

/-- The interval Δt from a report's link stamp, and whether it has been clamped to the horizon (R128). -/
def interval (tp stamp : Micros) (horizon : Nat) : Nat × Bool :=
  let d := signedDiff tp stamp
  if d < 0 then (0, false)
  else if (horizon : Int) < d then (horizon, true)
  else (d.toNat, false)

/-- The extrapolated position of one axis (R129). -/
def extrapolate (p v : Int) (dt : Nat) : Int := saturatePosition (p + roundAway (v * dt) 1000000)

/-- The extrapolated heading (R130). -/
def extrapolateHeading (h : Half) (yaw : Int) (dt : Nat) : Half :=
  h + BitVec.ofInt 16 (roundAway (yaw * dt) 1000000)

/-- The four residuals of a car (R125). -/
structure Residuals where
  x : Int
  y : Int
  z : Int
  h : Int
deriving DecidableEq, Repr, Inhabited

/-- All four residuals 0. -/
def Residuals.zero : Residuals := { x := 0, y := 0, z := 0, h := 0 }

/-- An extrapolated position and heading. -/
structure Pose where
  x : Int
  y : Int
  z : Int
  h : Half
deriving DecidableEq, Repr, Inhabited

/-- A report extrapolated to an instant, with its own interval (R128 to R130). -/
def poseAt (tp : Micros) (horizon : Nat) (d : CarData) : Pose :=
  let dt := (interval tp d.linkStamp horizon).1
  { x := extrapolate d.x d.vx dt, y := extrapolate d.y d.vy dt, z := extrapolate d.z d.vz dt,
    h := extrapolateHeading d.heading d.yaw dt }

/-- Two reports agree in link stamp, positions, velocities, heading and yaw rate (R131). -/
def sameReport (a b : CarData) : Bool :=
  a.linkStamp == b.linkStamp && a.x == b.x && a.y == b.y && a.z == b.z && a.vx == b.vx &&
    a.vy == b.vy && a.vz == b.vz && a.heading == b.heading && a.yaw == b.yaw

/-- The corrected residuals (R131). -/
def corrected (tp : Micros) (horizon : Nat) (pres : Option Presentation) (d : CarData) : Residuals :=
  match pres with
  | none => Residuals.zero
  | some q =>
    if sameReport d q.used then { x := q.rx, y := q.ry, z := q.rz, h := q.rh }
    else
      let old := poseAt tp horizon q.used
      let new := poseAt tp horizon d
      { x := q.rx + (old.x - new.x), y := q.ry + (old.y - new.y), z := q.rz + (old.z - new.z),
        h := q.rh + (old.h - new.h).toInt }

/-- A corrected residual exceeds its snap threshold (R132). -/
def snaps (snap snapHeading : Nat) (r : Residuals) : Bool :=
  decide (snap < r.x.natAbs) || decide (snap < r.y.natAbs) || decide (snap < r.z.natAbs) ||
    decide (snapHeading < r.h.natAbs)

/-- The residuals after the snap test (R132). -/
def afterSnap (snap snapHeading : Nat) (r : Residuals) : Residuals :=
  if snaps snap snapHeading r then Residuals.zero else r

/-- One residual after decay: times 16 − k, divided by 16, truncated toward zero (R133). -/
def decayOne (k : Nat) (r : Int) : Int := (r * (16 - (k : Int))).tdiv 16

/-- The residuals after decay (R133). -/
def decay (k : Nat) (r : Residuals) : Residuals :=
  { x := decayOne k r.x, y := decayOne k r.y, z := decayOne k r.z, h := decayOne k r.h }

/-! ## The settings of a computation (R126) -/

/-- The horizon H in µs. -/
def horizonMicros (s : State) : Nat := setting s 7 * 1000

/-- The residuals that a computation leaves for a car (R131 to R133). -/
def residualsFor (s : State) (tp : Micros) (pres : Option Presentation) (d : CarData) : Residuals :=
  decay (setting s 8)
    (afterSnap (setting s 9) (setting s 10) (corrected tp (horizonMicros s) pres d))

/-- The presentation state that a computation leaves for an extrapolated car (R133). -/
def presentCar (s : State) (tp : Micros) (pres : Option Presentation) (d : CarData) : Presentation :=
  let r := residualsFor s tp pres d
  let e := poseAt tp (horizonMicros s) d
  { used := d, rx := r.x, ry := r.y, rz := r.z, rh := r.h,
    px := saturatePosition (e.x + r.x), py := saturatePosition (e.y + r.y),
    pz := saturatePosition (e.z + r.z), ph := e.h + BitVec.ofInt 16 r.h }

/-- The freshness that an extrapolated car's interval gives (R122, R128). -/
def freshnessFor (s : State) (tp : Micros) (d : CarData) : Freshness :=
  if (interval tp d.linkStamp (horizonMicros s)).2 then .stale else .fresh

/-- The presentation state of a GONE car (R134). -/
def standingCar (d : CarData) : Presentation :=
  { used := d, rx := 0, ry := 0, rz := 0, rh := 0, px := d.x, py := d.y, pz := d.z, ph := d.heading }

/-! ## The cars of a bundle (R127, R134 to R136) -/

/-- A car shown with no presented values (R134). -/
def noneCar (k : CarSummary) (f : Freshness) : BundleCar :=
  { state := k.state, source := .none, fresh := f, x := 0, y := 0, z := 0, heading := 0, vx := 0, vy := 0,
    vz := 0, laps := 0, placing := k.placing, confirmed := k.confirmed }

/-- A car shown with a source, a freshness, a pose and the velocities and laps of a report (R136). -/
def shownCar (k : CarSummary) (src : BundleSource) (f : Freshness) (x y z : Int) (h : Half)
    (d : CarData) : BundleCar :=
  { state := k.state, source := src, fresh := f, x := x, y := y, z := z, heading := h, vx := d.vx,
    vy := d.vy, vz := d.vz, laps := d.laps, placing := k.placing, confirmed := k.confirmed }

/-- The own-report record of seat `k`, absent at or above the seat count (R113). -/
def ownRecord (s : State) (k : Nat) : Option CarData :=
  if k < seatCount s then s.seat.own.getD k none else none

/-- The computation is a repeat field (R135). -/
def isRepeat (s : State) : Bool :=
  heldFlag s || s.cyc.ring == .lost || s.cyc.ring == .standby || s.cyc.ring == .deferred

/-- An own car, shown from its own-report record (R134). -/
def ownCar (s : State) (k : CarSummary) (f : Freshness) : BundleCar :=
  match ownRecord s k.seat with
  | none => noneCar k f
  | some d => shownCar k .own f d.x d.y d.z d.heading d

/-- Car `c` of a field computation at an instant: what its bundle shows, and what its end writes into
its entry (R127, R134, R135). The freshness shown is the one formed here, also of an entry that a header makes
GONE before the computation ends (R136, notes/assumptions/30.md). -/
def computeCar (s : State) (tp : Micros) (c : Nat) : BundleCar × Option EntryWrite :=
  let k := summaryAt (shownSummary s) c
  let e := entryAt s c
  if k.state ≠ .vacant ∧ k.station = address s then (ownCar s k e.fresh, none)
  else if isRepeat s then
    match e.pres, e.data with
    | some q, some d => (shownCar k .held e.fresh q.px q.py q.pz q.ph d, none)
    | _, _ => (noneCar k e.fresh, none)
  else
    match e.fresh, e.data with
    | .none, _ => (noneCar k .none, none)
    | _, none => (noneCar k e.fresh, none)
    | .gone, some d =>
      (shownCar k .standing .gone d.x d.y d.z d.heading d,
        some { fresh := .gone, pres := standingCar d })
    | _, some d =>
      let q := presentCar s tp e.pres d
      let f := freshnessFor s tp d
      (shownCar k .presented f q.px q.py q.pz q.ph d, some { fresh := f, pres := q })

/-- The Field Bundle of an edge, before its dropped count is written at the placing (R136, R178). -/
def bundleFor (s : State) (number latchedLink latchedRace : Micros) (cars : List BundleCar) : Bundle :=
  { number := number, linkTime := latchedLink, raceTime := latchedRace, phase := racePhase s,
    held := heldFlag s, rep := isRepeat s, dropped := 0, cars := cars }

/-- The field computation that an edge starts, formed from the state at the edge
(R127, notes/assumptions/30.md). -/
def startComputation (s : State) (number : Micros) : Computation :=
  let tp := presentInstant s.time.link (setting s 6)
  let r := (List.range 8).map (computeCar s tp)
  { elapsed := 0, serialNo := s.freeCount,
    bundle := bundleFor s number s.time.link s.time.race (r.map (·.1)), writes := r.map (·.2),
    live := List.replicate 8 true }

/-- The most µs that a computation takes (R54). -/
def computationLimit (c : Computation) : Nat := min 150 (Config.computationMicros c.serialNo)

/-- What the end of a computation writes into one entry: nothing into an entry cleared since the edge. An
entry made GONE since the edge stays GONE (R127, R133, R134, notes/assumptions/30.md). -/
def writeEntry (live : Bool) (w : Option EntryWrite) (e : ReplicaEntry) : ReplicaEntry :=
  match w with
  | none => e
  | some w =>
    if live && e.fresh != .none then
      { e with fresh := if e.fresh = .gone then .gone else w.fresh, pres := some w.pres }
    else e

/-- The replica store after the end of a computation. -/
def writeEntries (k : Computation) (l : List ReplicaEntry) : List ReplicaEntry :=
  l.mapIdx fun i e => writeEntry (k.live.getD i false) (k.writes.getD i none) e

/-- A Field Bundle is placed whole with the dropped count as it stands, which becomes 0; or it is dropped,
the count rises and the BUNDLE OVERRUN notice is set (R137, R178). -/
def offerBundle (b : Bundle) (s : State) : State :=
  if roomFor s (.bundle b) then (placeReport (.bundle { b with dropped := s.dropped }) s).withDropped 0
  else recordNotice .bundleOverrun (s.withDropped (min 255 (s.dropped + 1)))

end Sys2Proof.Machine
end

