-- ==== Sys2Proof/Machine/BulkOps.lean ====
section
/-! DEFINITION. The bulk unit: send channels and their segments, outcomes of segments and aborts, and
the receive entries (chapter 10). -/

namespace Sys2Proof.Machine

open Sys2Proof

/-! ## Send channels (R151 to R157) -/

/-- Send channel `ch`, 1 or 2 (R151). -/
def chanAt (s : State) (ch : Nat) : SendChannel := s.bulk.send.getD (ch - 1) SendChannel.reset

/-- Replace send channel `ch`. -/
def setChan (ch : Nat) (c : SendChannel) (s : State) : State :=
  s.withBulk { s.bulk with send := s.bulk.send.set (ch - 1) c }

/-- The size of the segment that a channel makes (R154). -/
def segmentSize (c : SendChannel) : Nat := min 20 (min c.buffer.length c.remaining)

/-- The channel has a ready segment (R154). -/
def segmentReady (c : SendChannel) : Bool :=
  armed c && c.out.isNone && decide (min 20 c.remaining ≤ c.buffer.length)

/-- The channel has a ready BULK ABORT (R156). -/
def abortReady (c : SendChannel) : Bool := c.state == .active && c.abortPending && c.out.isNone

/-- A segment or BULK ABORT that becomes ready takes the next arrival order (R154, R156). -/
def makeReady (ch : Nat) (s : State) : State :=
  let c := chanAt s ch
  if c.ready.isNone && (segmentReady c || abortReady c) then
    (setChan ch { c with ready := some s.slots.arrival } s).withSlots
      { s.slots with arrival := s.slots.arrival + 1 }
  else s

/-- A channel becomes FAILED with a reason: its buffer is emptied, nothing of it is outstanding, and a
BULK FAILED report of the sending side is queued (R155, R156, R157). -/
def failChannel (ch : Nat) (why : SendFailure) (s : State) : State :=
  let c := chanAt s ch
  queueEvent (.bulkFailedSend ch c.peer why (c.total - c.remaining) c.remaining)
    (setChan ch
      { c with state := .failed why, abortPending := false, buffer := [], out := none, ready := none } s)

/-- A channel becomes DONE, and a BULK DONE report is queued (R155). -/
def completeChannel (ch : Nat) (s : State) : State :=
  let c := chanAt s ch
  queueEvent (.bulkDone ch c.peer c.total)
    (setChan ch
      { c with state := .done, abortPending := false, buffer := [], out := none, ready := none } s)

/-- An ACCEPTED outcome of the segment of `count` bytes outstanding (R155): the payload carries the
sequence number accepted and the bytes received at the peer. Of a shorter payload a number cut
short is what its bytes spell, and the segment counts as accepted (notes/assumptions/73.md). -/
def segmentAccepted (ch count : Nat) (p : List Byte) (s : State) : State :=
  let c := { chanAt s ch with remaining := (chanAt s ch).remaining - count, out := none }
  let s1 := setChan ch c s
  let s2 := if c.optEach then
      queueEvent (.bulkProgress ch c.peer (numAt p 0 2) (numAt p 2 2) c.remaining) s1
    else s1
  if c.remaining = 0 then completeChannel ch s2 else makeReady ch s2

/-- The channel acts on the outcome of its segment or BULK ABORT outstanding; an outcome that reaches a
channel that is not ACTIVE is discarded (R155, R156). -/
def bulkOutcome (ch : Nat) (o : MsgOutcome) (s : State) : State :=
  let c := chanAt s ch
  if c.state = .active then
    match c.out with
    | none => s
    | some .abort => failChannel ch .aborted s
    | some (.segment _ count) =>
      match o with
      | .accepted p => segmentAccepted ch count p s
      | .declined r => failChannel ch (.declined r) s
      | .lost => failChannel ch .lost s
  else s

/-- An ACTIVE channel fails with a reason; another is unchanged (R157). -/
def failIfActive (why : SendFailure) (ch : Nat) (s : State) : State :=
  if (chanAt s ch).state = .active then failChannel ch why s else s

/-- Every ACTIVE channel fails at Standby and at DEFERRED (R157). -/
def failActive (why : SendFailure) (s : State) : State :=
  failIfActive why 2 (failIfActive why 1 s)

/-- The END mark of the segment that a channel makes (R154). -/
def endMarkOf (c : SendChannel) : Bool := c.optEnd && decide (segmentSize c = c.remaining)

/-- The kind and payload that a channel posts: its BULK ABORT, or the segment at the head of its buffer
(R154, R156). -/
def channelMessage (ch : Nat) (c : SendChannel) : MsgKind × List Byte :=
  if c.abortPending then (.bulkAbort, beBytes 1 ch)
  else
    (.bulkSegment,
      segmentPayload ch c.nextSeq (endMarkOf c) c.total (c.buffer.take (segmentSize c)))

/-- The channel after its post: the segment's bytes leave the buffer and it becomes the segment
outstanding, with the next sequence number raised; or BULK ABORT becomes outstanding (R154, R156). -/
def channelPosted (c : SendChannel) : SendChannel :=
  if c.abortPending then { c with out := some .abort, ready := none }
  else
    { c with out := some (.segment c.nextSeq (segmentSize c)), nextSeq := (c.nextSeq + 1) % 4096,
             buffer := c.buffer.drop (segmentSize c), ready := none }

/-! ## Receive entries (R158 to R161) -/

/-- Receive entry `i`. -/
def recvAt (s : State) (i : Nat) : Option ReceiveEntry := s.bulk.recv.getD i none

/-- Replace receive entry `i`. -/
def setRecv (i : Nat) (e : Option ReceiveEntry) (s : State) : State :=
  s.withBulk { s.bulk with recv := s.bulk.recv.set i e }

/-- The OPEN entry of a source and channel. -/
def entryOf (s : State) (source channel : Nat) : Option Nat :=
  (List.range 4).find? fun i =>
    match recvAt s i with
    | none => false
    | some e => e.source == source && e.channel == channel

/-- The lowest-numbered FREE entry. -/
def freeEntry (s : State) : Option Nat := (List.range 4).find? fun i => (recvAt s i).isNone

/-- The BULK FAILED report of the receiving side (R162). -/
def recvFailure (e : ReceiveEntry) (why : ReceiveFailure) : Report :=
  .bulkFailedReceive e.source e.channel why e.received e.total

/-- Entry `i` closes with BULK FAILED (R159, R161). -/
def closeRecv (i : Nat) (why : ReceiveFailure) (s : State) : State :=
  match recvAt s i with
  | none => s
  | some e => queueEvent (recvFailure e why) (setRecv i none s)

/-- Every OPEN entry closes with the reason RING (R161). -/
def closeAllRing (s : State) : State := (List.range 4).foldl (fun s i => closeRecv i .ring s) s

/-- The BULK SEGMENT IN report of a segment of the entry as it stands before it (R160). -/
def segmentReport (e : ReceiveEntry) (data : List Byte) (endMark : Bool) : Report :=
  .bulkSegmentIn e.source e.channel e.expected data endMark (e.received + data.length) e.total

/-- An entry after a segment of `n` bytes is taken (R160). -/
def recvAfter (limit n : Nat) (e : ReceiveEntry) : ReceiveEntry :=
  { e with received := e.received + n, expected := (e.expected + 1) % 4096, idle := 0, limit := limit }

/-- A segment is taken by entry `i`, which stands as `e`; the room for its report has been tested
(R160). -/
def takeSegment (i : Nat) (e : ReceiveEntry) (data : List Byte) (endMark : Bool) (s : State) :
    State × Option MsgOutcome :=
  let e' := recvAfter (idleLimitMicros s) data.length e
  let s1 := placeReport (segmentReport e data endMark) (setRecv i (some e') s)
  let s2 := if e'.received = e.total then
      queueEvent (.bulkEnd e.source e.channel e.total endMark) (setRecv i none s1)
    else s1
  (s2, some (.accepted (beBytes 2 e.expected ++ beBytes 2 e'.received)))

/-- The restarted entry closes with BULK FAILED, recorded as its notice when the report FIFO lacks room
for it beside the segment's own report (R159, notes/assumptions/43.md). -/
def closeRestarted (i : Nat) (e : ReceiveEntry) (seg : Report) (s : State) : State :=
  if reportSize (recvFailure e .restarted) + reportSize seg ≤ reportFree s then
    closeRecv i .restarted s
  else recordNotice .bulk (setRecv i none s)

/-- A fresh entry for a stream (R159). -/
def freshRecv (source channel total : Nat) : ReceiveEntry :=
  { source := source, channel := channel, expected := 0, total := total, received := 0, idle := 0,
    limit := 0 }

/-- A segment of sequence 0 with no entry (R159). -/
def openSegment (source channel total : Nat) (data : List Byte) (endMark : Bool) (s : State) :
    State × Option MsgOutcome :=
  if total < data.length then (s, some (.declined .sequence))
  else
    match freeEntry s with
    | none => (s, some (.declined .busy))
    | some i =>
      let e := freshRecv source channel total
      if roomFor s (segmentReport e data endMark) then takeSegment i e data endMark s else (s, none)

/-- A BULK SEGMENT at its destination: the first row of R159's table that matches. No outcome means
that the slot is deferred. A payload shorter than its four head bytes has the data count 0, and a number cut
short is what its bytes spell (notes/assumptions/72.md). -/
def segmentAt (source : Nat) (p : List Byte) (s : State) : State × Option MsgOutcome :=
  let h := segmentHead p
  let channel := h.1
  let seq := h.2.1
  let endMark := h.2.2.1
  let total := h.2.2.2
  let data := p.drop 4
  let valid := channel == 1 || channel == 2
  let open_ := if valid then entryOf s source channel else none
  if !valid || total == 0 || data.length == 0 || decide (20 < data.length) then
    match open_ with
    | none => (s, some (.declined .sequence))
    | some i => (closeRecv i .sequence s, some (.declined .sequence))
  else
    match open_ with
    | none =>
      if seq = 0 then openSegment source channel total data endMark s
      else (s, some (.declined .noEntry))
    | some i =>
      match recvAt s i with
      | none => (s, some (.declined .noEntry))
      | some e =>
        if seq = e.expected ∧ total = e.total ∧ e.received + data.length ≤ e.total then
          if roomFor s (segmentReport e data endMark) then takeSegment i e data endMark s else (s, none)
        else if seq = 0 ∧ e.expected ≠ 0 then
          let seg := segmentReport (freshRecv source channel total) data endMark
          if total < data.length then (closeRecv i .restarted s, some (.declined .sequence))
          else if roomFor s seg then
            openSegment source channel total data endMark (closeRestarted i e seg s)
          else (s, none)
        else (closeRecv i .sequence s, some (.declined .sequence))

/-- A BULK ABORT at its destination (R161). An empty payload reads as channel 0, of which no entry is OPEN, and
bytes behind the first are not read (notes/assumptions/77.md). -/
def abortAt (source : Nat) (p : List Byte) (s : State) : State × Option MsgOutcome :=
  match entryOf s source (byteAt p 0) with
  | none => (s, some (.accepted []))
  | some i =>
    match recvAt s i with
    | none => (s, some (.accepted []))
    | some e =>
      (queueEvent (.bulkAborted e.source e.channel e.received) (setRecv i none s),
        some (.accepted []))

end Sys2Proof.Machine
end

