-- ==== Sys2Proof/Machine/RaceOps.lean ====
section
/-! DEFINITION. The race controller: phases and holds, the car table, the returned blocks, the finish
list, joins, leaves and the referral record (chapters 05, 06 and 09). -/

namespace Sys2Proof.Machine

open Sys2Proof

/-! ## PHASE and PLACING reports (R78, R149) -/

/-- Queue the anchor's PHASE report for an event (R78). -/
def queuePhase (ev : PhaseEvent) (s : State) : State :=
  queueEvent (.phase s.race.phase (anyCause s.race.causes) s.race.causes s.time.race ev) s

/-- A car with its placing and confirmed flag. -/
def placedCar (l : List FinishEntry) (c : Nat) : PlacedCar :=
  { car := c, placing := placingOf l c, confirmed := confirmedOf l c }

/-- Car `c` is RACING. -/
def isRacing (r : RaceControl) (c : Nat) : Bool := (r.cars.getD c Car.vacant).state == .racing

/-- The cars whose placing or confirmed flag changed, or that left RACING (R149). -/
def changedCars (before after : RaceControl) : List PlacedCar :=
  ((List.range 8).filter fun c =>
      placedCar before.finish c != placedCar after.finish c ||
        (isRacing before c && !isRacing after c)).map (placedCar after.finish)

/-- The finish list with each entry's car, placing, confirmed flag and finish time (R138, R149). -/
def finishList (r : RaceControl) : List (PlacedCar × Micros) :=
  r.finish.map fun e => (placedCar r.finish e.car, e.time)

/-- The number of cars still RACING. -/
def racingCount (r : RaceControl) : Nat := (r.cars.filter fun k => k.state == .racing).length

/-- Queue a PLACING report for an event that began with the race controller as `before` (R149). -/
def queuePlacing (cause : PlacingCause) (before : RaceControl) (s : State) : State :=
  queueEvent
    (.placing cause (changedCars before s.race) (finishList s.race) (racingCount s.race)) s

/-! ## Cars (R91, R92) -/

/-- Replace car `c` of the car table. -/
def setCar (c : Nat) (k : Car) (r : RaceControl) : RaceControl := { r with cars := r.cars.set c k }

/-- A car that becomes ENTERED for a join (R91, R98). -/
def enteredCar (j : JoinRequest) : Car :=
  { Car.vacant with state := .entered, owner := some { station := j.station, seat := j.seat },
                    tag := j.tag }

/-- A car that becomes RACING at GO (R81). -/
def racingCar (race : Micros) (k : Car) : Car :=
  { k with state := .racing, laps := 0, stamp := 0, crossing := 0, timer := some race }

/-- A car that becomes RETIRED with a reason; its lost-car timer is discarded (R92). -/
def retiredCar (why : RetireReason) (k : Car) : Car :=
  { k with state := .retired, reason := some why, timer := none }

/-- A car that becomes UNPLACED; its lost-car timer is discarded (R146). -/
def unplacedCar (k : Car) : Car := { k with state := .unplaced, timer := none }

/-- Every car VACANT, the finish list empty, the deadline none (R82, R83). -/
def emptyTable (r : RaceControl) : RaceControl :=
  { r with cars := List.replicate 8 Car.vacant, finish := [], deadline := none }

/-- The lowest-numbered VACANT car (R98). -/
def lowestVacant (r : RaceControl) : Option Nat :=
  (List.range 8).find? fun c => (r.cars.getD c Car.vacant).state == .vacant

/-- The car owned by a station and seat, in any state (R98). -/
def carOwnedBy (r : RaceControl) (station seat : Nat) : Option Nat :=
  (List.range 8).find? fun c =>
    (r.cars.getD c Car.vacant).owner == some { station := station, seat := seat }

/-! ## The finish list (R143 to R147) -/

/-- A finisher's place: after every entry with a lower time, or an equal time and a lower car number
(R143). -/
def insertFinish (e : FinishEntry) : List FinishEntry → List FinishEntry
  | [] => [e]
  | f :: rest =>
    if f.time.toNat < e.time.toNat ∨ (f.time.toNat = e.time.toNat ∧ f.car < e.car) then
      f :: insertFinish e rest
    else e :: f :: rest

/-- The last accepted race stamps of the RACING cars. -/
def racingStamps (r : RaceControl) : List Micros :=
  (r.cars.filter fun k => k.state == .racing).map (·.stamp)

/-- Confirm entries from the head while every RACING car's last accepted race stamp is strictly greater
than the entry's finish time, and stop at the first that is not (R144). -/
def confirmFrom (stamps : List Micros) : List FinishEntry → List FinishEntry
  | [] => []
  | e :: rest =>
    if e.confirmed || stamps.all (fun t => decide (e.time.toNat < t.toNat)) then
      { e with confirmed := true } :: confirmFrom stamps rest
    else e :: rest

/-- The confirmation test (R144). -/
def confirmList (r : RaceControl) : RaceControl :=
  { r with finish := confirmFrom (racingStamps r) r.finish }

/-- The close deadline of a finish list's head: its time plus the close window, saturating (R145). -/
def deadlineFor (windowSeconds : Nat) (head : Micros) : Micros :=
  BitVec.ofNat 32 (min topMicros (head.toNat + windowSeconds * 1000000))

/-- The deadline is recomputed when a different car stands at the head of the list (R145). -/
def recomputeDeadline (before : List FinishEntry) (r : RaceControl) : RaceControl :=
  match r.finish with
  | [] => r
  | e :: _ =>
    if before.head?.map (·.car) = some e.car then r
    else { r with deadline := some (deadlineFor (r.setup.getD 1 0) e.time) }

/-- The race ends when the phase is RUNNING or CLOSING and no car is RACING: every entry is confirmed,
the phase becomes RESULTS, the held causes become empty, and race time freezes with the cause RESULTS
(R83, R147). -/
def testRaceEnd (s : State) : State :=
  if (s.race.phase = .running ∨ s.race.phase = .closing) ∧ racingCount s.race = 0 then
    let r := confirmList s.race
    queuePhase .noRacingCar
      ((s.withRace { r with phase := .results, causes := HeldCauses.none }).withTime
        (freezeRace .results s.time))
  else s

/-- After cars have left RACING in an event that began with the race controller as `before`: the
confirmation test (R144), the PLACING report (R149) and the test for the end of the race (R147). -/
def afterLeavingRacing (cause : PlacingCause) (before : RaceControl) (s : State) : State :=
  testRaceEnd (queuePlacing cause before (s.withRace (confirmList s.race)))

/-- A RACING car is RETIRED with a reason (R92). -/
def retireCar (why : RetireReason) (c : Nat) (s : State) : State :=
  afterLeavingRacing .retirement s.race
    (s.withRace (setCar c (retiredCar why (carAt s c)) s.race))

/-- The deadline stands reached: the phase is RUNNING or CLOSING and race time is at or above it
(R145, R147). -/
def deadlineReached (s : State) : Bool :=
  (s.race.phase == .running || s.race.phase == .closing) &&
    (match s.race.deadline with
     | none => false
     | some d => decide (d.toNat ≤ s.time.race.toNat))

/-- The deadline is taken: every car still RACING becomes UNPLACED (R146). -/
def takeDeadline (s : State) : State :=
  afterLeavingRacing .deadline s.race
    (s.withRace { s.race with
      cars := s.race.cars.map fun k => if k.state = .racing then unplacedCar k else k })

/-! ## Returned blocks (R139 to R142) -/

/-- A block is read for race purposes by its valid flag, its car number, and the car's state and owner
(R139). -/
def readForRace (k : Car) (c : Nat) (b : CarBlock) : Bool :=
  b.valid && b.car == c && decide (b.station < 15) && k.state == .racing &&
    k.owner == some { station := b.station, seat := b.seat }

/-- The crossing of a block clamped into the range from the last accepted stamp to the block's own
(R141). -/
def clampCrossing (last own crossing : Micros) : Micros :=
  if crossing.toNat < last.toNat then last
  else if own.toNat < crossing.toNat then own else crossing

/-- A car after an accepted block that does not finish it (R140, R141, R93). -/
def carAfterBlock (race : Micros) (d : CarData) (k : Car) : Car :=
  { k with laps := max d.laps k.laps,
           crossing := if k.laps < max d.laps k.laps then clampCrossing k.stamp d.raceStamp d.crossing
                       else k.crossing,
           stamp := d.raceStamp, timer := some race }

/-- A car that an accepted block finishes (R142). -/
def finishedCar (race : Micros) (d : CarData) (k : Car) : Car :=
  { carAfterBlock race d k with
    state := .finished, finish := some (clampCrossing k.stamp d.raceStamp d.crossing), timer := none }

/-- A finishing block is handled: the car becomes FINISHED and enters the list, RUNNING becomes CLOSING,
the deadline follows the head, and a deadline that then stands reached is taken at once, before the later
blocks of the return, whether this block recomputed it or not; R146 lets either come first
(R142, R145, R146, notes/assumptions/34.md). -/
def finishCar (c : Nat) (d : CarData) (s : State) : State :=
  let k := carAt s c
  let k' := finishedCar s.time.race d k
  let r1 := setCar c k' s.race
  let e : FinishEntry :=
    { car := c, time := clampCrossing k.stamp d.raceStamp d.crossing, confirmed := false }
  let r2 := recomputeDeadline s.race.finish { r1 with finish := insertFinish e r1.finish }
  let s1 := if s.race.phase = .running then
      queuePhase .finish (s.withRace { r2 with phase := .closing })
    else s.withRace r2
  let s2 := queuePlacing .finish s.race (s1.withRace (confirmList s1.race))
  if deadlineReached s2 && decide (0 < racingCount s2.race) then takeDeadline s2 else testRaceEnd s2

/-- One returned block is read (R139 to R142). -/
def readBlock (c : Nat) (syms : List RxSym) (s : State) : State :=
  match parseBlock syms with
  | none => s
  | some b =>
    let k := carAt s c
    if readForRace k c b && decide (k.stamp.toNat < b.data.raceStamp.toNat) then
      if setup s 0 ≤ max b.data.laps k.laps then finishCar c b.data s
      else
        let r := setCar c (carAfterBlock s.time.race b.data k) s.race
        let s1 := s.withRace (confirmList r)
        if s1.race.finish = s.race.finish then s1 else queuePlacing .confirm s.race s1
    else s

/-! ## Holds (R84 to R87) -/

/-- Change the held causes: race time freezes when the set was empty and is not, and runs again when
it becomes empty (R84, R43). A PHASE report is queued when the set changes (R78). -/
def setCauses (causes : HeldCauses) (ev : PhaseEvent) (s : State) : State :=
  if causes = s.race.causes then s
  else
    let t :=
      if anyCause causes && !anyCause s.race.causes then freezeRace .held s.time
      else if !anyCause causes && anyCause s.race.causes then resumeRace s.time
      else s.time
    queuePhase ev ((s.withRace { s.race with causes := causes }).withTime t)

/-! ## Joins, leaves and the referral record (R97 to R105) -/

/-- Queue a REFERRAL report (R99, R101, R102). CLOSED and SLOT LOST have the layout of OPENED, so they carry the
player tag and a timeout of 0 as well (notes/assumptions/70.md). -/
def queueReferral (cond : ReferralCondition) (j : JoinRequest) (timeout : Nat)
    (a : Option JoinAnswer) (s : State) : State :=
  queueEvent (.referral cond j.station j.seat j.tag timeout a) s

/-- How the race controller treats a join that it processes (R98): decided, or handed to the referral
record. -/
inductive JoinStep where
  | decided (a : JoinAnswer)
  | referred
deriving DecidableEq, Repr, Inhabited

/-- The steps of R98 on a join, by the race controller as it stands and the anchor's signature. -/
def judgeJoin (r : RaceControl) (sig : Half × Half) (j : JoinRequest) : JoinStep :=
  if r.phase ≠ .gathering then .decided (.declined .notGathering)
  else if (j.title, j.revision) ≠ sig then .decided (.declined .mismatch)
  else
    match carOwnedBy r j.station j.seat with
    | some c => .decided (.accepted c)
    | none =>
      if r.setup.getD 2 0 = 0 then
        match lowestVacant r with
        | some c => .decided (.accepted c)
        | none => .decided (.declined .full)
      else if r.setup.getD 2 0 = 1 then
        let c := r.grid.getD (2 * j.station + j.seat) 8
        if 8 ≤ c then .decided (.declined .noEntry)
        else if (r.cars.getD c Car.vacant).state = .vacant then .decided (.accepted c)
        else .decided (.declined .occupied)
      else .referred

/-- A car given to a join becomes ENTERED, unless the join owns it already (R98). -/
def enterCar (j : JoinRequest) (a : JoinAnswer) (r : RaceControl) : RaceControl :=
  match a with
  | .declined _ => r
  | .accepted c =>
    if (r.cars.getD c Car.vacant).state = .vacant then setCar c (enteredCar j) r else r

/-- The outcome that a join's answer gives its source: the result payload is the car number (R98). -/
def joinAnswerOutcome : JoinAnswer → MsgOutcome
  | .accepted c => .accepted (beBytes 1 c)
  | .declined r => .declined r

/-- The referral timeout in µs (R99). -/
def referralMicros (s : State) : Nat := setup s 3 * 1000000

/-- A join enters the FREE referral record (R99). -/
def openReferral (j : JoinRequest) (carrier : Carrier) (s : State) : State :=
  queueReferral .opened j (referralMicros s) none
    (s.withRace { s.race with referral := .pending j carrier (referralMicros s) })

/-- The referral record becomes FREE, and a REFERRAL report CLOSED carries the answer (R101). -/
def closeReferral (j : JoinRequest) (a : JoinAnswer) (s : State) : State :=
  queueReferral .closed j 0 (some a) (s.withRace { s.race with referral := .free })

/-- The held slot of the referral is lost: the record becomes FREE, PENDING or DECIDED (R102). -/
def loseReferral (s : State) : State :=
  match s.race.referral with
  | .free => s
  | .pending j _ _ => queueReferral .slotLost j 0 none (s.withRace { s.race with referral := .free })
  | .decided j _ a _ =>
    queueReferral .slotLost j 0 (some a) (s.withRace { s.race with referral := .free })

/-- A PENDING referral is decided: the anchor's own join is delivered at once, a held slot's answer
waits for the slot (R101). The timeout has ended: the record keeps the µs that were left
(R99, notes/assumptions/60.md). -/
def decideReferral (a : JoinAnswer) (s : State) : State :=
  match s.race.referral with
  | .free => s
  | .decided _ _ _ _ => s
  | .pending j carrier left =>
    match carrier with
    | .own => closeReferral j a (joinOutcome j.seat (joinAnswerOutcome a) s)
    | .slot .. => s.withRace { s.race with referral := .decided j carrier a left }

/-- The anchor's own join is processed (R96, R98, R99). -/
def ownJoin (j : JoinRequest) (s : State) : State :=
  match judgeJoin s.race (signature s) j with
  | .decided a =>
    joinOutcome j.seat (joinAnswerOutcome a) (s.withRace (enterCar j a s.race))
  | .referred =>
    match s.race.referral with
    | .free => openReferral j .own s
    | _ => s

/-- The result payload of a LEAVE: car and state, car 8 for none (R105, notes/assumptions/17.md). -/
def leavePayload (c : Nat) (st : CarState) : List Byte := beBytes 1 c ++ beBytes 1 (carStateCode st)

/-- The race controller processes a leave of a station and seat (the table of R105). -/
def processLeave (station seat : Nat) (s : State) : State × MsgOutcome :=
  match carOwnedBy s.race station seat with
  | none => (s, .accepted (leavePayload 8 .vacant))
  | some c =>
    let k := carAt s c
    if s.race.phase ≠ .results ∧ k.state = .entered then
      (s.withRace (setCar c Car.vacant s.race), .accepted (leavePayload c .vacant))
    else if s.race.phase ≠ .results ∧ k.state = .racing then
      (retireCar .withdrawn c s, .accepted (leavePayload c .retired))
    else (s, .accepted (leavePayload c k.state))

/-! ## GO at the anchor (R48, R52, R81) -/

/-- Every ENTERED car becomes RACING at GO (R81). -/
def startCars (race : Micros) (r : RaceControl) : RaceControl :=
  { r with cars := r.cars.map fun k => if k.state = .entered then racingCar race k else k }

/-- GO fires at the anchor: FAULT is added if the countdown fault mark is set, which is then cleared;
the phase becomes RUNNING, ENTERED cars become RACING, and a race with none ends at once
(R48, R52, R81). -/
def fireAtAnchor (g : Micros) (s : State) : State :=
  let causes : HeldCauses := { fault := s.race.countdownMark, command := false }
  let v := (signedDiff s.time.link g).toNat
  let st := if s.race.countdownMark then RaceStatus.frozen .held else .counting
  let s1 := fireGo g v st s
  let r := startCars s1.time.race s1.race
  testRaceEnd (queuePhase .goFired
    (s1.withRace { r with phase := .running, causes := causes, countdownMark := false }))

end Sys2Proof.Machine
end

