-- ==== Sys2Proof/Machine/SlotOps.lean ====
section
/-! DEFINITION. The slot engine: tags and queues, candidates and ordering, posting, the claim, slots at a
destination, outcomes at the source, and ring loss (chapter 04). -/

namespace Sys2Proof.Machine

open Sys2Proof

/-! ## Tags and queues (R57, R58) -/

/-- A queued message or an outstanding entry of a kind carries a tag (R57). -/
def tagInUse (e : SlotEngine) (k : MsgKind) (t : Nat) : Bool :=
  (e.urgent ++ e.normal).any (fun m => m.kind == k && m.tag == t) ||
    e.outstanding.any (fun o => o.kind == k && o.tag == t)

/-- The next value of the tag counter that no queued message or outstanding entry of the kind carries
(R57). -/
def nextTag (e : SlotEngine) (k : MsgKind) : Nat :=
  (((List.range 256).map fun i => (e.tagCounter + i) % 256).find? fun t => !tagInUse e k t).getD
    e.tagCounter

/-- The tag counter advances past the value given (R57). -/
def advanceTag (t : Nat) (e : SlotEngine) : SlotEngine := { e with tagCounter := (t + 1) % 256 }

/-- A message joins the queue of its class with the next arrival order (R58). -/
def enqueue (k : MsgKind) (cls : MsgClass) (dest tag : Nat) (payload : List Byte) (seat : Nat)
    (e : SlotEngine) : SlotEngine :=
  let m : QueuedMsg :=
    { kind := k, cls := cls, dest := dest, tag := tag, payload := payload, order := e.arrival,
      seat := seat }
  match cls with
  | .urgent => { e with urgent := e.urgent ++ [m], arrival := e.arrival + 1 }
  | .normal => { e with normal := e.normal ++ [m], arrival := e.arrival + 1 }

/-- The queue of a class has room (R58). -/
def queueRoom (e : SlotEngine) : MsgClass → Bool
  | .urgent => decide (e.urgent.length < 4)
  | .normal => decide (e.normal.length < 8)

/-- Queue a message that the part tags itself, and give its tag (R57, R58). -/
def queueTagged (k : MsgKind) (dest : Nat) (payload : List Byte) (seat : Nat) (s : State) : State × Nat :=
  let t := nextTag s.slots k
  (s.withSlots (enqueue k .urgent dest t payload seat (advanceTag t s.slots)), t)

/-- A station that may post: a MAPPED node, or an anchor in SURVEYING, CYCLING or STALLED (R58). -/
def ringReady (s : State) : Bool :=
  if anchorRole s then emitting s.cyc.ring else s.cyc.ring == .mapped

/-! ## Candidates and ordering (R60 to R62) -/

/-- What a station may post next: a queued message, or the ready segment of a channel (R61). -/
inductive Candidate where
  | queued (m : QueuedMsg)
  | channel (ch : Nat)
deriving DecidableEq, Repr, Inhabited

/-- The urgent candidate (R61). -/
def urgentCandidate (s : State) : Option QueuedMsg := s.slots.urgent.head?

/-- A channel's ready segment with its arrival order. -/
def readyChoice (s : State) (ch : Nat) : List (Nat × Candidate) :=
  match (chanAt s ch).ready with
  | none => []
  | some o => [(o, .channel ch)]

/-- The normal-class choices in the order channel 1, channel 2, oldest of the normal queue (R61). -/
def normalChoices (s : State) : List (Nat × Candidate) :=
  readyChoice s 1 ++ readyChoice s 2 ++
    (match s.slots.normal.head? with
     | none => []
     | some m => [(m.order, .queued m)])

/-- The choice with the earliest arrival order. -/
def earliest : List (Nat × Candidate) → Option (Nat × Candidate)
  | [] => none
  | c :: rest =>
    match earliest rest with
    | none => some c
    | some d => if d.1 < c.1 then some d else some c

/-- The posting settings as they stand, settings entries 2 to 5 (R56). -/
def postingNow (s : State) : Posting :=
  { urgent := setting s 2, normal := setting s 3, order := setting s 4, starvation := setting s 5 }

/-- The ordering mode in force in this frame is IN-ORDER (R56, R62). -/
def inOrder (s : State) : Bool := s.slots.inForce.order == 0

/-- The normal candidate with its arrival order (R61). -/
def normalCandidate (s : State) : Option (Nat × Candidate) :=
  if inOrder s then earliest (normalChoices s) else (normalChoices s).head?

/-- A budget leaves room: 7 sets no limit (R60). -/
def withinBudget (budget used : Nat) : Bool := budget == 7 || decide (used < budget)

/-- The urgent class is within its budget (R62). -/
def urgentWithin (s : State) : Bool := withinBudget s.slots.inForce.urgent s.slots.urgentUsed

/-- The normal class is within its budget (R62). -/
def normalWithin (s : State) : Bool := withinBudget s.slots.inForce.normal s.slots.normalUsed

/-- An urgent message is blocked in PASS-SAFE: the normal queue or a ready segment holds an older
normal-class message with the same destination (R62). -/
def blocked (s : State) (u : QueuedMsg) : Bool :=
  s.slots.normal.any (fun m => decide (m.order < u.order) && m.dest == u.dest) ||
    [1, 2].any fun ch =>
      match (chanAt s ch).ready with
      | none => false
      | some o => decide (o < u.order) && (chanAt s ch).peer == u.dest

/-- The urgent candidate is older than the normal one: in IN-ORDER it is next (R62). -/
def urgentFirst (s : State) : Bool :=
  match urgentCandidate s, normalCandidate s with
  | none, _ => false
  | some _, none => true
  | some u, some n => decide (u.order < n.1)

/-- The normal candidate, if it is within budget and free of the claim (R62). -/
def normalChoice (s : State) (free : Bool) : Option Candidate :=
  if normalWithin s && free then (normalCandidate s).map (·.2) else none

/-- The urgent candidate, if it is within budget (R62). -/
def urgentChoice (s : State) : Option Candidate :=
  if urgentWithin s then (urgentCandidate s).map Candidate.queued else none

/-- The candidate that the ordering mode selects at an EMPTY slot; `free` says whether the claim leaves
the normal class free (R62). -/
def choose (s : State) (free : Bool) : Option Candidate :=
  if inOrder s then if urgentFirst s then urgentChoice s else normalChoice s free
  else
    match urgentCandidate s, urgentChoice s with
    | some u, some c => if s.slots.inForce.order = 1 ∧ blocked s u then normalChoice s free else some c
    | _, _ => normalChoice s free

/-! ## Posting (R59, R63) -/

/-- The slot as a post writes it (R63). -/
def postedSlot (source dest : Nat) (cls : MsgClass) (k : MsgKind) (tag : Nat) (payload : List Byte) :
    SlotMsg :=
  { answered := false, relay := 0, cls := cls, hold := false, source := source, dest := dest, kind := k,
    tag := tag, outcome := 0, len := payload.length, payload := padPayload payload }

/-- The outstanding entry that a post makes (R59, R63). -/
def postedEntry (cls : MsgClass) (k : MsgKind) (tag dest place : Nat) (ch : Option Nat) (seat : Nat) :
    Outstanding :=
  { kind := k, cls := cls, tag := tag, dest := dest, place := place, broadcast := dest == 15,
    waited := 0, progress := .waiting, channel := ch, seat := seat, spared := true }

/-- The slot engine after a post: the entry is made and the post counted in its class's budget (R60). -/
def afterPost (o : Outstanding) (e : SlotEngine) : SlotEngine :=
  let e' := { e with outstanding := e.outstanding ++ [o] }
  match o.cls with
  | .urgent => { e' with urgentUsed := e.urgentUsed + 1 }
  | .normal => { e' with normalUsed := e.normalUsed + 1 }

/-- A message leaves the head of its queue. -/
def dequeue (cls : MsgClass) (e : SlotEngine) : SlotEngine :=
  match cls with
  | .urgent => { e with urgent := e.urgent.tail }
  | .normal => { e with normal := e.normal.tail }

/-- Post a candidate into a slot place (R63). The tag of a bulk segment or BULK ABORT is drawn here, at its
post and not as it becomes ready (R57, R154, notes/assumptions/59.md). -/
def post (c : Candidate) (place : Nat) (s : State) : State × SlotMsg :=
  match c with
  | .queued m =>
    (s.withSlots (afterPost (postedEntry m.cls m.kind m.tag m.dest place none m.seat)
        (dequeue m.cls s.slots)),
      postedSlot (address s) m.dest m.cls m.kind m.tag m.payload)
  | .channel ch =>
    let c := chanAt s ch
    let msg := channelMessage ch c
    let t := nextTag s.slots msg.1
    ((setChan ch (channelPosted c) s).withSlots
        (afterPost (postedEntry .normal msg.1 t c.peer place (some ch) 0) (advanceTag t s.slots)),
      postedSlot (address s) c.peer .normal msg.1 t msg.2)

/-- What a station notes over the slots of one frame (R62, R65). -/
structure SlotPass where
  /-- IN-ORDER has selected nothing at an EMPTY slot, and posts nothing further (R62) -/
  stopped : Bool
  /-- an EMPTY slot free of the claim has reached the posting step -/
  offered : Bool
  /-- throughout so far, a normal candidate within budget was ready with room in the table -/
  starving : Bool
  /-- an urgent message was posted in its stead -/
  passedOver : Bool
  postedNormal : Bool
deriving DecidableEq, Repr, Inhabited

/-- The outstanding table has room (R59). -/
def tableRoom (s : State) : Bool := decide (s.slots.outstanding.length < 4)

/-- The conditions that R65's second case asks for throughout the frame: a normal candidate, within its
budget, not passed over by IN-ORDER, with room in the table (notes/assumptions/35.md). -/
def wantsSlot (s : State) : Bool :=
  (normalCandidate s).isSome && normalWithin s && tableRoom s && !(inOrder s && urgentFirst s)

/-- The pass as it begins. -/
def SlotPass.start (s : State) : SlotPass :=
  { stopped := false, offered := false, starving := wantsSlot s, passedOver := false,
    postedNormal := false }

/-- The posting step of one slot (R62, R63). -/
def postStep (free : Bool) (place : Nat) (slot : Slot) (p : SlotPass) (s : State) :
    Slot × SlotPass × State :=
  match slot with
  | some m => (some m, p, s)
  | none =>
    let p1 := { p with offered := p.offered || free }
    if p.stopped || !tableRoom s then (none, p1, s)
    else
      match choose s free with
      | none => (none, { p1 with stopped := inOrder s }, s)
      | some c =>
        let r := post c place s
        let p2 :=
          match r.2.cls with
          | .urgent => { p1 with passedOver := true }
          | .normal => { p1 with postedNormal := true }
        (some r.2, p2, r.1)

/-! ## The claim at a node (R65, R66) -/

/-- The claim leaves a position free to post normal-class messages (R65). -/
def claimFree (claim position : Nat) : Bool := claim == 0 || decide (claim ≤ position)

/-- What a MAPPED node writes into the claim field, none for nothing (R66). -/
def claimWrite (e : SlotEngine) (limit field position : Nat) : Option Nat :=
  if e.claimClear then if field = position then some 0 else none
  else if limit ≤ e.starvation ∧ (field = 0 ∨ position < field) then some position
  else none

/-- The starvation count and claim clear mark when a frame with a good header has passed (R65). -/
def afterFrame (p : SlotPass) (e : SlotEngine) : SlotEngine :=
  if p.postedNormal then { e with starvation := 0, claimClear := true }
  else if p.starving && !p.passedOver && !p.offered then
    { e with starvation := min 255 (e.starvation + 1) }
  else { e with starvation := 0 }

/-! ## Outcomes at the source (R73 to R75) -/

/-- Place an OUTCOME report at once, or keep the outcome in the entry as REPORT PENDING (R74). -/
def outcomeReport (o : Outstanding) (out : MsgOutcome) (s : State) : State :=
  let r : Report := .outcome o.kind o.tag o.dest out
  if roomFor s r then placeReport r s
  else
    s.withSlots
      { s.slots with
        outstanding := s.slots.outstanding ++
          [{ o with progress := .reportPending out s.slots.outcomeOrder }],
        outcomeOrder := s.slots.outcomeOrder + 1 }

/-- Hand the outcome of an entry that has left the table to the block that waits for it (R74). -/
def settleEntry (o : Outstanding) (out : MsgOutcome) (s : State) : State :=
  match o.kind with
  | .join => joinOutcome o.seat out s
  | .leave => leaveOutcome o.seat out s
  | .poll => queueEvent (.pollAnswer o.dest o.tag out) s
  | .bulkSegment =>
    match o.channel with
    | none => s
    | some ch => bulkOutcome ch out s
  | .bulkAbort =>
    match o.channel with
    | none => s
    | some ch => bulkOutcome ch out s
  | .game => outcomeReport o out s
  | .tableWrite => outcomeReport o out s
  | .tableRead => outcomeReport o out s
  | .clearStations => outcomeReport o out s

/-- An entry leaves the table with an outcome, which is handed on (R59, R74). -/
def endEntry (o : Outstanding) (out : MsgOutcome) (s : State) : State :=
  settleEntry o out (s.withSlots { s.slots with outstanding := s.slots.outstanding.erase o })

/-- The WAITING entry that a slot at a place names by kind and tag (R57). -/
def matching (e : SlotEngine) (place : Nat) (m : SlotMsg) : Option Outstanding :=
  e.outstanding.find? fun o =>
    o.progress == .waiting && o.kind == m.kind && o.tag == m.tag && o.place == place

/-- The source takes an outcome for its own slot; a stale slot gives none (R68, R73). -/
def takeOutcome (place : Nat) (m : SlotMsg) (out : MsgOutcome) (s : State) : State :=
  match matching s.slots place m with
  | none => s
  | some o => endEntry o out s

/-- The outcome that an ANSWERED slot carries. An ANSWERED slot with outcome code 0 carries none that the
spec states: its outcome is free (notes/assumptions/44.md). -/
def slotOutcome (m : SlotMsg) (s : State) : MsgOutcome × State :=
  match outcomeOf m.outcome m.body with
  | some o => (o, s)
  | none =>
    let v := freeValue s
    ((outcomeOf (v.1 % 14 + 1) m.body).getD .lost, v.2)

/-- The source of an ANSWERED slot takes its outcome (R73). -/
def takeAnswer (place : Nat) (m : SlotMsg) (s : State) : State :=
  match matching s.slots place m with
  | none => s
  | some o =>
    let r := slotOutcome m s
    endEntry o r.1 r.2

/-- The source sees its slot POSTED with the hold mark: the cycles waited become 0 (R73). -/
def spareEntry (place : Nat) (m : SlotMsg) (e : SlotEngine) : SlotEngine :=
  { e with
    outstanding := e.outstanding.map fun o =>
      if o.progress == .waiting && o.kind == m.kind && o.tag == m.tag && o.place == place then
        { o with waited := 0, spared := true }
      else o }

/-- The cycles waited of an entry when a frame has passed or been emitted (R73). -/
def waitedAfter (o : Outstanding) : Outstanding :=
  if o.progress == .waiting && !o.spared then { o with waited := min 18 (o.waited + 1) }
  else { o with spared := false }

/-- Every WAITING entry not spared adds 1 to its cycles waited (R73). -/
def countWaited (e : SlotEngine) : SlotEngine :=
  { e with outstanding := e.outstanding.map waitedAfter }

/-- An entry whose cycles waited have reached 18 (R73). -/
def waitedOut (o : Outstanding) : Bool := o.progress == .waiting && decide (18 ≤ o.waited)

/-- Every entry of a kind ends with the outcome LOST, in table order. -/
def endLost (p : Outstanding → Bool) (s : State) : State :=
  (s.slots.outstanding.filter p).foldl (fun s o => endEntry o .lost s) s

/-- Every entry that has reached the wait limit ends LOST (R73). -/
def endWaitedOut (s : State) : State := endLost waitedOut s

/-- A queued JOIN or LEAVE that is discarded gives the seat unit the outcome LOST (R75). -/
def discardQueued (s : State) (m : QueuedMsg) : State :=
  match m.kind with
  | .join => joinOutcome m.seat .lost s
  | .leave => leaveOutcome m.seat .lost s
  | _ => s

/-- The queued messages of both classes. -/
def queuedMessages (e : SlotEngine) : List QueuedMsg := e.urgent ++ e.normal

/-- The slot engine loses the ring: every WAITING entry ends LOST, both queues are emptied, and the
starvation count, clear mark and budgets used return to 0 (R75). -/
def ringLoss (s : State) : State :=
  let s1 := endLost (fun o => o.progress == .waiting) s
  (queuedMessages s1.slots).foldl discardQueued
    (s1.withSlots { s1.slots with urgent := [], normal := [], starvation := 0, claimClear := false,
                                  urgentUsed := 0, normalUsed := 0 })

/-- A node that becomes UNMAPPED or returns to LISTENING: starvation count 0, clear mark clear (R75). -/
def forgetClaim (e : SlotEngine) : SlotEngine := { e with starvation := 0, claimClear := false }

/-! ## A slot at its destination (R69, R70) -/

/-- The outcome code of an outcome written into a slot. -/
def outcomeCode : MsgOutcome → Nat
  | .accepted _ => 1
  | .declined r => declineCode r
  | .lost => 0

/-- The result payload of an outcome: a DECLINED answer carries none (R69). -/
def outcomePayload : MsgOutcome → List Byte
  | .accepted p => p
  | .declined _ => []
  | .lost => []

/-- The slot answered: source, destination, class, kind, tag and relay count are kept and the hold mark is
cleared (R69). -/
def answerSlot (m : SlotMsg) (o : MsgOutcome) : SlotMsg :=
  { m with answered := true, hold := false, outcome := outcomeCode o,
           len := (outcomePayload o).length, payload := padPayload (outcomePayload o) }

/-- The GAME In report of a slot (R69). -/
def gameReport (m : SlotMsg) (broadcast : Bool) : Report :=
  .gameIn m.source m.cls m.tag m.body broadcast

/-- A unicast GAME at its destination: answered with its report queued, or deferred (R69). -/
def serveGame (m : SlotMsg) (s : State) : State × Option MsgOutcome :=
  if roomFor s (gameReport m false) then (placeReport (gameReport m false) s, some (.accepted []))
  else (s, none)

/-- The seat unit answers a POLL with the attention code and the pending mark (R111). -/
def servePoll (s : State) : State × Option MsgOutcome :=
  let o : MsgOutcome :=
    .accepted (beBytes 1 s.seat.attentionCode ++ beBytes 1 (bitNum s.seat.attentionPending 0))
  if s.seat.attentionPending then
    (queueEvent (.pollComplete s.seat.attentionCode)
      (s.withSeat { s.seat with attentionPending := false }), some o)
  else (s, some o)

/-- Write values into settings places, each clamped into its entry's range (R172, R173). -/
def writeSettings (places : List Nat) (values : List Nat) (u : SettingsUnit) : SettingsUnit :=
  { u with entries := writeAt settingRange u.entries (places.zip values) }

/-- The values of a TABLE WRITE payload. -/
def payloadValues (p : List Byte) (count : Nat) : List Nat :=
  (List.range count).map fun k => numAt p (3 + 2 * k) 2

/-- The settings unit answers a TABLE WRITE from the anchor (R174, R175). -/
def serveTableWrite (p : List Byte) (s : State) : State × Option MsgOutcome :=
  match tableOf (byteAt p 0) with
  | .raceSetup => (s, some (.declined .localOnly))
  | .grid => (s, some (.declined .localOnly))
  | .unknown _ => (s, some (.declined .noEntry))
  | .settings =>
    let count := byteAt p 2
    if count < 1 ∨ 10 < count ∨ p.length ≠ 3 + 2 * count then (s, some (.declined .noEntry))
    else
      let places := writablePlaces (byteAt p 1) count
      if places.any fun i => protectedGroup s.settings (settingGroup i) then
        (s, some (.declined .prot))
      else
        let u := writeSettings places (payloadValues p count) s.settings
        (s.withSettings u, some (.accepted ((readAt u.entries places).flatMap (beBytes 2))))

/-- The settings unit answers a TABLE READ from the anchor (R174). Bytes behind its three items are not read,
and an item that is missing reads as 0 (notes/assumptions/82.md). -/
def serveTableRead (p : List Byte) (s : State) : State × Option MsgOutcome :=
  match tableOf (byteAt p 0) with
  | .raceSetup => (s, some (.declined .localOnly))
  | .grid => (s, some (.declined .localOnly))
  | .unknown _ => (s, some (.declined .noEntry))
  | .settings =>
    let count := byteAt p 2
    if count < 1 ∨ 20 < count then (s, some (.declined .noEntry))
    else
      (s, some (.accepted
        ((readAt s.settings.entries (wrapPlaces 20 (byteAt p 1) (min 11 count))).flatMap (beBytes 2))))

/-- A destination serves a kind only when it comes from the address at position 0 of the map in its
mirrors (R69). -/
def fromAnchor (m : SlotMsg) (serve : State → State × Option MsgOutcome) (s : State) :
    State × Option MsgOutcome :=
  if mirrorAnchor s = some m.source then serve s else (s, some (.declined .undeliverable))

/-- The block named in R57 answers a POSTED slot at its destination, or defers it (no outcome). The kinds
that a node does not serve are answered DECLINED UNDELIVERABLE (R69). -/
def serveSlot (m : SlotMsg) (s : State) : State × Option MsgOutcome :=
  match m.kind with
  | .join => (s, some (.declined .undeliverable))
  | .leave => (s, some (.declined .undeliverable))
  | .clearStations => (s, some (.declined .undeliverable))
  | .poll => fromAnchor m servePoll s
  | .tableWrite => fromAnchor m (serveTableWrite m.body) s
  | .tableRead => fromAnchor m (serveTableRead m.body) s
  | .game => serveGame m s
  | .bulkSegment => segmentAt m.source m.body s
  | .bulkAbort => abortAt m.source m.body s

/-- A copy of a broadcast (R70): a GAME In report, or the MESSAGE DROP notice when there is no room; or
the copy of CLEAR STATIONS. -/
def copyBroadcast (m : SlotMsg) (s : State) : State :=
  match m.kind with
  | .game =>
    if roomFor s (gameReport m true) then placeReport (gameReport m true) s
    else recordNotice .messageDrop s
  | .clearStations => clearStationsCopy s
  | _ => s

/-- A station copies a broadcast when its position lies on the lap that the relay count tells (R70). -/
def copiesBroadcast (s : State) (m : SlotMsg) : Bool :=
  match mirrorPosition s, positionOf (mirrorMap s) m.source with
  | some p, some q => (m.relay == 0 && decide (q < p)) || (m.relay == 1 && decide (p < q))
  | _, _ => false

/-- A slot in use passes a MAPPED node: the first row of R68's table that matches. The node's own broadcast
at a relay count of 2 or more, for which the table has no action, is forwarded unchanged
(notes/assumptions/61.md). -/
def nodeSlot (place : Nat) (m : SlotMsg) (s : State) : Slot × State :=
  if m.answered then
    if m.source = address s then (none, takeAnswer place m s) else (some m, s)
  else if m.dest = 15 ∧ m.source = address s then
    if m.relay = 1 then (none, takeOutcome place m (.accepted []) s) else (some m, s)
  else if m.dest = address s then
    match serveSlot m s with
    | (s', some o) => (some (answerSlot m o), s')
    | (s', none) => (some m, s')
  else if m.dest = 15 then (some m, if copiesBroadcast s m then copyBroadcast m s else s)
  else if m.hold ∧ m.source = address s then (some m, s.withSlots (spareEntry place m s.slots))
  else (some m, s)

/-! ## The relay at the anchor (R71, R72) -/

/-- A place leaves the held-slot list and the race controller is told that the held slot is lost (R72). -/
def loseHeld (place : Nat) (s : State) : State :=
  if s.slots.held.any fun h => h.place == place then
    loseReferral (s.withSlots { s.slots with held := s.slots.held.filter fun h => h.place != place })
  else s

/-- Every held slot is lost with its frame (R72). -/
def loseAllHeld (s : State) : State :=
  if s.slots.held.isEmpty then s else loseReferral (s.withSlots { s.slots with held := [] })

/-- A slot carried forward has its relay count raised by 1; with the hold mark it keeps it (R72). The
count that 15 is raised to is free (notes/assumptions/16.md). -/
def carry (m : SlotMsg) (s : State) : Slot × State :=
  if m.hold then (some m, s)
  else if m.relay < 15 then (some { m with relay := m.relay + 1 }, s)
  else
    let v := freeValue s
    (some { m with relay := v.1 % 16 }, v.2)

/-- What becomes of a POSTED slot at the anchor as destination: answered, or left POSTED with or without
the hold mark. -/
inductive Served where
  | answer (o : MsgOutcome)
  | left (hold : Bool)
deriving DecidableEq, Repr, Inhabited

/-- The slot is a held slot: its place, source and tag stand in the held-slot list. -/
def isHeld (e : SlotEngine) (place : Nat) (m : SlotMsg) : Bool :=
  m.hold && e.held.any fun h => h.place == place && h.source == m.source && h.tag == m.tag

/-- A JOIN slot that is not held, handed to the race controller (R97, R98, R99,
notes/assumptions/63.md). -/
def serveJoin (place : Nat) (m : SlotMsg) (s : State) : State × Served :=
  let j := joinOf m.body
  if j.station ≠ m.source ∨ 1 < j.seat then (s, .answer (.declined .mismatch))
  else
    match judgeJoin s.race (signature s) j with
    | .decided a => (s.withRace (enterCar j a s.race), .answer (joinAnswerOutcome a))
    | .referred =>
      match s.race.referral with
      | .free =>
        ((openReferral j (.slot place m.source m.tag) s).withSlots
            { s.slots with
              held := s.slots.held ++ [{ place := place, source := m.source, tag := m.tag }] },
          .left true)
      | _ => (s, .left false)

/-- The held slot returns: a DECIDED referral is delivered in it, a PENDING one holds it on (R101). -/
def serveHeld (place : Nat) (s : State) : State × Served :=
  match s.race.referral with
  | .decided j _ a _ =>
    (closeReferral j a
        (s.withSlots { s.slots with held := s.slots.held.filter fun h => h.place != place }),
      .answer (joinAnswerOutcome a))
  | _ => (s, .left true)

/-- A LEAVE slot handed to the race controller (R105). A payload shorter than its two items reads as 0 where
it has no byte (notes/assumptions/63.md). -/
def serveLeave (m : SlotMsg) (s : State) : State × Served :=
  if byteAt m.body 0 ≠ m.source ∨ 1 < byteAt m.body 1 then (s, .answer (.declined .mismatch))
  else
    let r := processLeave m.source (byteAt m.body 1) s
    (r.1, .answer r.2)

/-- A POSTED slot whose destination is the anchor (R69, R71). -/
def anchorServe (place : Nat) (m : SlotMsg) (s : State) : State × Served :=
  match m.kind with
  | .join => if isHeld s.slots place m then serveHeld place s else serveJoin place m s
  | .leave => serveLeave m s
  | _ =>
    match serveSlot m s with
    | (s', some o) => (s', .answer o)
    | (s', none) => (s', .left m.hold)

/-- The rows of R71 for a POSTED slot after the destination row. -/
def relayPosted (place : Nat) (m : SlotMsg) (s : State) : Slot × State :=
  if m.hold = false ∧ m.relay = 15 then carry (answerSlot m (.declined .undeliverable)) s
  else if m.dest = 15 ∧ m.kind ≠ .game ∧ m.kind ≠ .clearStations then
    carry (answerSlot m (.declined .undeliverable)) s
  else if m.dest ≠ 15 ∧ lists s.survey.map m.dest = false then
    carry (answerSlot m (.declined .noStation)) s
  else if m.dest = 15 ∧ m.source ≠ address s ∧ m.relay = 0 then carry m (copyBroadcast m s)
  else if m.dest = 15 ∧ 1 ≤ m.relay then (none, s)
  else if m.dest = 15 ∧ m.source = address s then (none, takeOutcome place m (.accepted []) s)
  else carry m s

/-- The rows of R71 for an ANSWERED slot. -/
def relayAnswered (place : Nat) (m : SlotMsg) (s : State) : Slot × State :=
  if m.source = address s then (none, takeAnswer place m s)
  else if lists s.survey.map m.source = false then (none, s)
  else if m.relay = 15 then (none, s)
  else carry m s

/-- One returned slot through the relay: the first row of R71 that matches. -/
def relaySlot (place : Nat) (syms : List RxSym) (s : State) : Slot × State :=
  match parseSlot syms with
  | none => (none, loseHeld place s)
  | some none => (none, s)
  | some (some m) =>
    if m.answered then relayAnswered place m s
    else if lists s.survey.map m.source = false then (none, loseHeld place s)
    else if m.dest = address s then
      match anchorServe place m s with
      | (s', .answer o) => carry (answerSlot m o) s'
      | (s', .left true) => carry { m with hold := true } s'
      | (s', .left false) => relayPosted place { m with hold := false } s'
    else relayPosted place m s

end Sys2Proof.Machine
end

