-- ==== Sys2Proof/Machine/SurveyOps.lean ====
section
/-! DEFINITION. The survey unit: what starts a survey, the collect passes, the judgement of a returned pass,
offsets, success and failure at the anchor, and the entry that a node appends (chapter 02). -/

namespace Sys2Proof.Machine

open Sys2Proof

/-! ## Passes (R24, R27) -/

/-- Attempt 1, pass 1 of a fresh survey (R24). -/
def newRun : SurveyRun :=
  { attempt := 1, pass := 1, emitted := false, first := none, lastFailure := none, returned1 := none,
    returned2 := none }

/-- A survey starts: the anchor enters SURVEYING with no missed return counted (R14, R24). -/
def beginSurvey (s : State) : State :=
  let s1 := setRing .surveying s
  (s1.withCyc { s1.cyc with missed := 0 }).withSurvey { s1.survey with run := some newRun }

/-- A survey starts, with the RING report of the change (R12, R15). -/
def startSurvey (s : State) : State := queueRing .surveying (beginSurvey s)

/-- The epoch that the map will take if the survey succeeds: the counter plus 1, 255 followed by 1
(R27). -/
def forthcoming (u : SurveyUnit) : Nat := u.counter % 255 + 1

/-- This station's collect entry (R27). -/
def ownEntry (s : State) : CollectEntry :=
  { address := address s, serial := ownSerial s, role := setting s 13, seatCount := seatCount s,
    title := (signature s).1, revision := (signature s).2 }

/-- The collect header of a pass as it leaves the anchor (R27). -/
def passHeader (s : State) (r : SurveyRun) : CollectHeader :=
  { serial := ownSerial s, epoch := forthcoming s.survey, attempt := r.attempt, pass := r.pass,
    count := 1, overflow := false }

/-- The station loops its link output to its input (R19). -/
def isSolo (s : State) : Bool := role s == .solo

/-- The collect frame of a pass (R27). -/
def passFrame (s : State) (r : SurveyRun) : OutFrame :=
  { kind := .collect, symbols := toSymbols (collectHeaderBytes (passHeader s r) ++ entryBytes (ownEntry s)),
    looped := isSolo s }

/-- The collect pass awaited is emitted (R27). -/
def emitPass (s : State) : State :=
  match s.survey.run with
  | none => s
  | some r =>
    sendFrames [passFrame s r] (s.withSurvey { s.survey with run := some { r with emitted := true } })

/-! ## The end of a survey (R31 to R36) -/

/-- The SURVEY report of a survey that ends (R36). -/
def surveyReport (r : SurveyRun) (failure : Option SurveyFailure) (epoch missing : Nat)
    (shared : Option (Nat × Serial × Serial)) : Report :=
  let nr := (r.returned2.or r.returned1).getD (0, 0)
  .survey { failure := failure, attempts := r.attempt, epoch := epoch, n := nr.1, r := nr.2,
            shared := shared, missing := missing }

/-- The anchor enters CYCLING at the end of a survey, with its RING report (R15, R31, R33). -/
def enterCycling (s : State) : State :=
  let s1 := setRing .cycling s
  queueRing (.cycling s1.cyc.missed) (s1.withCyc { s1.cyc with newcomerLast := none })

/-- The survey fails: the map, epoch, counter and entry list stay, no survey runs, the newcomer latch is
set, and CYCLING and the SURVEY report follow (R31). -/
def failSurvey (r : SurveyRun) (why : SurveyFailure) (shared : Option (Nat × Serial × Serial))
    (s : State) : State :=
  queueEvent (surveyReport r (some why) s.survey.epoch 0 shared)
    (enterCycling (s.withSurvey { s.survey with run := none, latch := true }))

/-- An attempt ends without success: the next begins, or the survey fails after attempt 3 (R31). -/
def endAttempt (r : SurveyRun) (why : SurveyFailure) (s : State) : State :=
  if r.attempt < 3 then
    s.withSurvey
      { s.survey with
        run := some { r with attempt := r.attempt + 1, pass := 1, emitted := false, first := none,
                             lastFailure := some why } }
  else failSurvey r why none s

/-- The offset of position `p`, from N entries and the round trip R, rounded to nearest with halves
upward (R32). -/
def surveyOffset (n r p : Nat) : Nat :=
  (2 * (p * (32 * n + (r - 32 * (n - 1)))) + 10 * n) / (20 * n)

/-- The map of a successful survey (R32, R33). -/
def surveyMap (entries : List CollectEntry) (r : Nat) : RingMap :=
  { addr := (entries.map CollectEntry.address ++ List.replicate 12 15).take 12,
    off := (List.range 12).map fun p =>
      if p < entries.length then surveyOffset entries.length r p else 0 }

/-- Car `c` is owned by a station that the map does not list (R34). -/
def ownerMissing (m : RingMap) (k : Car) : Bool :=
  match k.owner with
  | none => false
  | some o => !lists m o.station

/-- The number of missing stations (R34, R36). -/
def missingStations (m : RingMap) (r : RaceControl) : Nat :=
  (((r.cars.filter (ownerMissing m)).filterMap fun k => k.owner.map (·.station)).dedup).length

/-- R34 on one car: ENTERED becomes VACANT, RACING becomes RETIRED with the reason ABSENT. -/
def missingCar (m : RingMap) (s : State) (c : Nat) : State :=
  let k := carAt s c
  if ownerMissing m k then
    match k.state with
    | .entered => s.withRace (setCar c Car.vacant s.race)
    | .racing => retireCar .absent c s
    | _ => s
  else s

/-- R34 on the car table: nothing in RESULTS. R34 names no order for several cars of missing stations: they are
handled by ascending car number, each one an event of its own (R149, notes/assumptions/79.md). -/
def applyMissing (m : RingMap) (s : State) : State :=
  if s.race.phase = .results then s else (List.range 8).foldl (missingCar m) s

/-- FAULT is removed and the countdown fault mark cleared (R87). -/
def clearFault (s : State) : State :=
  let s1 := setCauses { s.race.causes with fault := false } .surveySuccess s
  s1.withRace { s1.race with countdownMark := false }

/-- The survey unit with the new map (R33). -/
def adoptMap (entries : List CollectEntry) (r : Nat) (u : SurveyUnit) : SurveyUnit :=
  { u with map := surveyMap entries r, epoch := forthcoming u, counter := forthcoming u,
           entries := entries, run := none, latch := false }

/-- The survey succeeds (R33, R34, R36, R87). -/
def succeedSurvey (r : SurveyRun) (entries : List CollectEntry) (roundTrip : Nat) (s : State) : State :=
  let u := adoptMap entries roundTrip s.survey
  queueEvent (surveyReport r none u.epoch (missingStations u.map s.race) none)
    (enterCycling (clearFault (applyMissing u.map (s.withSurvey u))))

/-! ## A returned pass (R29, R30) -/

/-- The shared address, with the serials of the first two entries in ring order that carry it (R30). When more
than one address is shared it is the one whose first entry lies earliest (notes/assumptions/67.md). -/
def sharedAddress : List CollectEntry → Option (Nat × Serial × Serial)
  | [] => none
  | e :: rest =>
    match rest.find? fun f => f.address == e.address with
    | some f => some (e.address, e.serial, f.serial)
    | none => sharedAddress rest

/-- Two round trips differ by more than 2 units (R30). -/
def tripsDiffer (a b : Nat) : Bool := decide (a + 2 < b) || decide (b + 2 < a)

/-- The run with what the SURVEY report names of a returned pass (R36). -/
def noteReturn (n roundTrip : Nat) (r : SurveyRun) : SurveyRun :=
  if r.pass = 1 then { r with returned1 := some (n, roundTrip) }
  else { r with returned2 := some (n, roundTrip) }

/-- A pass 2 judged against its pass 1 (R30). -/
def judgeSecond (r : SurveyRun) (entries : List CollectEntry) (roundTrip : Nat) (s : State) : State :=
  match r.first with
  | none => endAttempt r .unstable s
  | some p =>
    if entries ≠ p.entries then endAttempt r .unstable s
    else if tripsDiffer roundTrip p.roundTrip then endAttempt r .unstable s
    else if 2000 < roundTrip then failSurvey r .tooLong none s
    else succeedSurvey r entries roundTrip s

/-- A returned pass is judged in the order of R30's table. -/
def judgePass (r0 : SurveyRun) (overflow : Bool) (entries : List CollectEntry) (roundTrip : Nat)
    (s : State) : State :=
  let r := noteReturn entries.length roundTrip r0
  if overflow then failSurvey r .tooMany none s
  else
    match sharedAddress entries with
    | some sh => failSurvey r .duplicate (some sh) s
    | none =>
      if r.pass = 1 then
        s.withSurvey
          { s.survey with
            run := some { r with pass := 2, emitted := false,
                                 first := some { entries := entries, roundTrip := roundTrip } } }
      else judgeSecond r entries roundTrip s

/-- The entries of a collect frame, every check good; none otherwise. -/
def parseEntries : Nat → List RxSym → Option (List CollectEntry)
  | 0, syms => if syms.isEmpty then some [] else none
  | n + 1, syms =>
    match parseEntry (syms.take 15), parseEntries n (syms.drop 15) with
    | some e, some l => some (e :: l)
    | _, _ => none

/-- The measured round trip, saturated (R29); a SOLO station's is 8 (R29). -/
def measuredTrip (s : State) (roundTrip : Nat) : Nat := if isSolo s then 8 else min 65535 roundTrip

/-- The collect header is that of the pass awaited (R29). -/
def passAwaited (s : State) (r : SurveyRun) (h : CollectHeader) : Bool :=
  r.emitted && h.serial == ownSerial s && h.epoch == forthcoming s.survey && h.attempt == r.attempt &&
    h.pass == r.pass

/-! ## A collect frame at a node (R28) -/

/-- The collect header symbols with the entry count raised by 1 (R28). -/
def raiseCount (b : List Byte) (count : Nat) : List Byte :=
  withCheck ((setByte b 9 (BitVec.ofNat 8 (count + 1))).take 11)

/-- The collect header symbols with the overflow mark set (R28). -/
def setOverflow (b : List Byte) : List Byte := withCheck ((setByte b 10 1).take 11)

/-- The node records the forthcoming epoch as its surveyed epoch as it appends; a mapped epoch equal to it
becomes 0 (R28). -/
def recordSurveyed (epoch : Nat) (s : State) : State :=
  (s.withSurvey { s.survey with surveyedEpoch := epoch }).withCyc
    { s.cyc with mappedEpoch := if s.cyc.mappedEpoch = epoch then 0 else s.cyc.mappedEpoch }

/-- A collect frame is whole: END ended it (`ended`), and no earlier than behind the entries that its header
counts, 15 bytes each. Any other is a short frame (R4, R27). -/
def collectWhole (ended : Bool) (h : CollectHeader) (syms : List RxSym) : Bool :=
  ended && decide (13 + 15 * h.count ≤ syms.length)

/-- A collect frame passes a node (R28): the symbols that leave it. `ended` says that END ended it. A short frame
leaves ended at the same byte, without the node's entry (R4); that its header then leaves with the count raised
and that no epoch is recorded is an inference (notes/assumptions/27.md). R4 says only of a CYCLE frame what too
many data bytes do: a COLLECT frame with more of them than its entry count tells, or than 193, is passed on whole
with the entry behind it (DESIGN CHOICE, notes/assumptions/55.md). -/
def nodeCollect (ended : Bool) (syms : List RxSym) (s : State) : List RxSym × State :=
  match parseCollectHeader (syms.take 13), bytesOf (syms.take 13) with
  | some h, some b =>
    let s1 := s.withCyc { s.cyc with silence := some 0 }
    if 12 ≤ h.count then (toSymbols (setOverflow b) ++ syms.drop 13, s1)
    else if collectWhole ended h syms then
      (toSymbols (raiseCount b h.count) ++ syms.drop 13 ++ toSymbols (entryBytes (ownEntry s)),
        recordSurveyed h.epoch s1)
    else (toSymbols (raiseCount b h.count) ++ syms.drop 13, s1)
  | _, _ => (syms, s)

end Sys2Proof.Machine
end

