-- ==== Sys2Proof/Machine/AnchorOps.lean ====
section
/-! DEFINITION. What the anchor does at a cycle boundary and on a return: missed returns and the stall, the
claim, the header, blocks and slots of an emitted frame, a valid return, and DEFERRED (R13 to R17, R64,
R67, R94, R104, R108, R110, R117, R119). -/

namespace Sys2Proof.Machine

open Sys2Proof

/-! ## The parts of a received cycle frame (R4) -/

/-- The header symbols of a cycle frame. -/
def headerPart (syms : List RxSym) : List RxSym := syms.take 64

/-- The symbols of car block `c`, those that were received. -/
def blockPart (c : Nat) (syms : List RxSym) : List RxSym := (syms.drop (64 + 44 * c)).take 44

/-- The symbols of slot `i`, those that were received. -/
def slotPart (i : Nat) (syms : List RxSym) : List RxSym := (syms.drop (416 + 32 * i)).take 32

/-- The symbols of a frame that a forwarding station sends on untouched: of a long cycle frame the first
608 (R4). -/
def throughput (k : FrameKind) (syms : List RxSym) : List RxSym :=
  match k with
  | .cycle => syms.take 608
  | .collect => syms

/-! ## Missed returns and the stall (R14, R15, R52, R72, R86) -/

/-- The return miss limit M in force (R14). -/
def missLimit (s : State) : Nat := setup s 5

/-- The frame awaited is a missed return: the next slots begin EMPTY and every held slot is lost; in
CYCLING the count rises (R14, R64, R72). -/
def missReturn (s : State) : State :=
  let c := s.cyc
  let s1 := s.withCyc
    { c with awaited := none, missed := if c.ring = .cycling then min 8 (c.missed + 1) else c.missed }
  loseAllHeld (s1.withSlots { s1.slots with nextSlots := List.replicate 6 none })

/-- The anchor enters STALLED: FAULT in RUNNING and CLOSING, the countdown fault mark in COUNTDOWN, and the
RING report STALL IN PHASE in the other phases (R15, R52, R86). -/
def enterStalled (s : State) : State :=
  let s1 := setRing .stalled s
  let s2 := queueRing (.stalled s1.cyc.missed) s1
  match s2.race.phase with
  | .running => setCauses { s2.race.causes with fault := true } .stall s2
  | .closing => setCauses { s2.race.causes with fault := true } .stall s2
  | .countdown => s2.withRace { s2.race with countdownMark := true }
  | p => queueRing (.stallInPhase p) s2

/-- The frame awaited would be the M-th consecutive missed return at the next emission (R14). -/
def missLimitDue (s : State) : Bool :=
  s.cyc.ring == .cycling && s.cyc.awaited.isSome && decide (missLimit s ≤ s.cyc.missed + 1)

/-- The frame awaited at an emission is counted missed, and the anchor stalls at the limit (R14). -/
def countMissed (s : State) : State :=
  if s.cyc.awaited.isSome then
    if missLimitDue s then enterStalled (missReturn s) else missReturn s
  else s

/-! ## Emission of a cycle frame (R13, R64, R67, R94) -/

/-- The claim in force names a position that the map fills (R67). -/
def claimListed (s : State) : Bool :=
  s.slots.claim != 0 && (addrAt s.survey.map s.slots.claim).isSome

/-- The claim in force has age 64 and is in the map, in a ring state that emits cycle frames (R67). -/
def claimAgeDue (s : State) : Bool :=
  (s.cyc.ring == .cycling || s.cyc.ring == .stalled) && claimListed s &&
    decide (64 ≤ s.slots.claimAge)

/-- The claim in force and its age after an emission; the field written is the claim after it (R67). -/
def emitClaim (s : State) : SlotEngine :=
  let e := s.slots
  if claimListed s && decide (e.claimAge < 64) then
    { e with claimAge := e.claimAge + 1, claimEmitted := e.claim }
  else { e with claim := 0, claimAge := 0, claimEmitted := 0 }

/-- The GO link time of an emitted header: G from COUNTDOWN to RESULTS, 0 otherwise (R46, R94). -/
def emittedGo (s : State) : Micros :=
  match s.race.phase with
  | .idle => 0
  | .gathering => 0
  | _ => (goTimeOf s.time.go).getD 0

/-- The header of an emitted cycle frame (R13, R67, R94, R108, R110). -/
def emittedHeader (s : State) : Header :=
  { serial := ownSerial s, cycle := s.cyc.cycleNumber, epoch := s.survey.epoch,
    linkStamp := s.time.link, raceStamp := s.time.race, phase := s.race.phase,
    held := anyCause s.race.causes, causes := s.race.causes, goTime := emittedGo s,
    lapTotal := setup s 0, periodCode := setup s 6, rollEnable := setup s 7 == 1, newcomer := false,
    claim := s.slots.claimEmitted,
    roll := if setup s 7 = 1 ∧ answersRoll s then rollBit s else 0,
    attention := if s.seat.attentionPending then attentionBit (address s) else 0,
    map := s.survey.map, summary := tableSummary s.race }

/-- A car block that carries an own report (R116). -/
def ownBlock (s : State) (c k : Nat) (d : CarData) : List RxSym :=
  toSymbols (blockBytes { car := c, station := address s, seat := k, valid := true, data := d })

/-- Seat `k` is SEATED with car `c`. -/
def seatedWith (s : State) (k c : Nat) : Bool :=
  match seatAt s k with
  | .seated d _ => d == c
  | .unseated => false
  | .requested _ => false

/-- Block `c` of an emitted frame (the table of R117). -/
def emittedBlock (s : State) (c : Nat) : List RxSym :=
  let relayed := s.cyc.relayCopy.getD c (clearedBlock c)
  let k := carAt s c
  if k.state = .vacant then clearedBlock c
  else
    match k.owner with
    | none => relayed
    | some o =>
      match ownRecord s o.seat with
      | none => relayed
      | some d =>
        if o.station = address s ∧ seatedWith s o.seat c then ownBlock s c o.seat d else relayed

/-- The anchor's own copy of a CLEAR STATIONS that it posts (R112). -/
def copyOwnPost (before after : Slot) (s : State) : State :=
  match before, after with
  | none, some m => if m.kind = .clearStations then clearStationsCopy s else s
  | _, _ => s

/-- The anchor posts into the slots from place `i` on, in slot order (R64). -/
def anchorSlots (free : Bool) : Nat → List Slot → SlotPass → State → List Slot × State
  | _, [], _, s => ([], s)
  | i, slot :: rest, p, s =>
    let r := postStep free i slot p s
    let t := anchorSlots free (i + 1) rest r.2.1 (copyOwnPost slot r.1 r.2.2)
    (r.1 :: t.1, t.2)

/-- The budgets used start from 0 for a frame, which the posting settings given govern (R56, R60). -/
def freshBudgets (p : Posting) (e : SlotEngine) : SlotEngine :=
  { e with urgentUsed := 0, normalUsed := 0, inForce := p }

/-- The seats and the replica store follow the summary that the anchor writes (R104, R119). -/
def anchorMirrors (s : State) : State :=
  let s1 := mirrorSeats (tableSummary s.race) s
  summarySet (tableSummary s1.race) s1

/-- The next boundary lies one period in force after this emission (R13). -/
def placeBoundary (s : State) : State :=
  s.withCyc { s.cyc with nextBoundary := some (periodMicros (setup s 6)) }

/-- A cycle frame is emitted: entries at the wait limit end, seats and replicas follow the summary, the
claim is carried, the header, blocks and slots are formed, and the waits counted (R13, R64, R67, R73). The
header is formed before the anchor's own copy of a CLEAR STATIONS that it posts into this frame
(R112, notes/assumptions/64.md). -/
def emitCycle (s : State) : State :=
  let s1 := anchorMirrors (endWaitedOut s)
  let s2 := s1.withSlots (freshBudgets (postingNow s1) (emitClaim s1))
  let h := emittedHeader s2
  let blocks := (List.range 8).flatMap (emittedBlock s2)
  let r := anchorSlots (claimFree s2.slots.claimEmitted 0) 0 s2.slots.nextSlots (SlotPass.start s2) s2
  let s3 := r.2.withSlots { countWaited r.2.slots with nextSlots := List.replicate 6 none }
  let s4 := s3.withCyc
    { s3.cyc with awaited := some s3.cyc.cycleNumber, cycleNumber := (s3.cyc.cycleNumber + 1) % 65536 }
  placeBoundary
    (sendFrames
      [{ kind := .cycle,
         symbols := toSymbols (headerBytes h) ++ blocks ++ r.1.flatMap fun x => toSymbols (slotBytes x),
         looped := isSolo s4 }] s4)

/-- The first collect pass of a survey goes out while a cycle frame is still awaited: its slots are EMPTY
and its held slots lost (R15, R24). -/
def dropAwaited (s : State) : State :=
  if s.cyc.awaited.isSome then
    let s1 := s.withCyc { s.cyc with awaited := none }
    loseAllHeld (s1.withSlots { s1.slots with nextSlots := List.replicate 6 none })
  else s

/-- A boundary in SURVEYING: a pass not returned fails with NO RETURN; then the next pass goes out, or a
cycle frame when the survey has failed (R24, R27, R29, R31). -/
def surveyBoundary (s : State) : State :=
  match s.survey.run with
  | none => placeBoundary s
  | some r =>
    if r.emitted then
      let s1 := endAttempt r .noReturn s
      if s1.cyc.ring = .surveying then placeBoundary (emitPass s1) else emitCycle s1
    else placeBoundary (emitPass (dropAwaited s))

/-- What the anchor does at a cycle boundary (R13). -/
def atBoundary (s : State) : State :=
  match s.cyc.ring with
  | .surveying => surveyBoundary s
  | .cycling => emitCycle (countMissed s)
  | .stalled => emitCycle (countMissed s)
  | _ => s

/-! ## A valid return (R14, R15, R26, R67, R108, R110, R139) -/

/-- The anchor takes the returned claim field as its claim in force (R67). -/
def takeClaim (field : Nat) (e : SlotEngine) : SlotEngine :=
  { e with claim := field, claimAge := if field = e.claimEmitted then e.claimAge else 0 }

/-- The returned roll field becomes the roll result, with a ROLL report when it differs (R108). -/
def takeRoll (field : Half) (s : State) : State :=
  let old := s.race.roll
  let s1 := s.withRace { s.race with roll := field }
  if field = old then s1 else queueEvent (.roll field (field &&& ~~~old) (old &&& ~~~field)) s1

/-- The returned attention field is held, with an ATTENTION report when an address is newly raised
(R110). A bit 15 that comes back set, which no part writes, is handled as the others
(notes/assumptions/83.md). -/
def takeAttention (field : Half) (s : State) : State :=
  let raised := field &&& ~~~s.race.attention
  let s1 := s.withRace { s.race with attention := field }
  if raised = 0 then s1 else queueEvent (.attention raised field) s1

/-- The blocks of a return are read for race purposes in car order (R139). -/
def readBlocks (syms : List RxSym) (s : State) : State :=
  (List.range 8).foldl (fun s c => readBlock c (blockPart c syms) s) s

/-- The replica store is given the blocks of a return in car order (R120). -/
def takeBlocks (l : List CarSummary) (syms : List RxSym) (s : State) : State :=
  (List.range 8).foldl (fun s c => takeBlock l c (blockPart c syms) s) s

/-- The relay of the returned slots from place `i` on (R71). -/
def relaySlots (syms : List RxSym) : Nat → Nat → State → List Slot × State
  | _, 0, s => ([], s)
  | i, n + 1, s =>
    let r := relaySlot i (slotPart i syms) s
    let t := relaySlots syms (i + 1) n r.2
    (r.1 :: t.1, t.2)

/-- The valid return is handed to the race controller, the replica store, the relay copy and the slot
engine (R14, R71, R117). -/
def handReturn (h : Header) (syms : List RxSym) (s : State) : State :=
  let l := tableSummary s.race
  let s1 := s.withCyc { s.cyc with awaited := none, missed := 0 }
  let s2 := readBlocks syms (s1.withSlots (takeClaim h.claim s1.slots))
  let s3 := if s.cyc.ring = .surveying then s2 else takeBlocks l syms s2
  let s4 := s3.withCyc { s3.cyc with relayCopy := (List.range 8).map fun c => blockPart c syms }
  let s5 := takeAttention h.attention (takeRoll h.roll s4)
  let r := relaySlots syms 0 6 s5
  r.2.withSlots { r.2.slots with nextSlots := r.1 }

/-- The newcomer flag of a valid return starts a survey (R26). -/
def newcomerStarts (h : Header) (s : State) : Bool :=
  h.newcomer && (s.race.phase == .idle || s.race.phase == .gathering) && setup s 8 == 1 &&
    !s.survey.latch

/-- The newcomer flag appears on a valid return (R26). -/
def newcomerAppears (h : Header) (s : State) : Bool := h.newcomer && s.cyc.newcomerLast != some true

/-- A valid return starts a survey: the stall's end, FAULT held in RUNNING or CLOSING, or a newcomer, each
as the state stood when the return was taken (R24, notes/assumptions/26.md). -/
def returnStarts (h : Header) (s : State) : Bool :=
  match s.cyc.ring with
  | .stalled => true
  | .cycling =>
    (s.race.causes.fault && (s.race.phase == .running || s.race.phase == .closing)) ||
      newcomerStarts h s
  | _ => false

/-- The newcomer flag of a valid return is remembered, and a clear flag clears the latch (R26). -/
def noteNewcomer (h : Header) (s : State) : State :=
  (s.withCyc { s.cyc with newcomerLast := some h.newcomer }).withSurvey
    { s.survey with latch := h.newcomer && s.survey.latch }

/-- A valid return (R14, R15, R24, R26). The NEWCOMER report carries the race phase that stands once the blocks
of the return have been read, while the conditions for a survey are those before them
(notes/assumptions/26.md, notes/assumptions/80.md). -/
def validReturn (h : Header) (syms : List RxSym) (s : State) : State :=
  let s1 := noteNewcomer h (handReturn h syms s)
  if returnStarts h s then startSurvey s1
  else if newcomerAppears h s then queueRing (.newcomer s1.race.phase) s1
  else s1

/-- The frame is a valid return: full, ended by END, and of the cycle number awaited (R14). -/
def isValidReturn (f : RxFrame) (h : Header) (s : State) : Bool :=
  decide (608 ≤ f.symbols.length) && f.ending == .endSymbol && s.cyc.awaited == some h.cycle

/-! ## Foreign frames and DEFERRED (R16, R17) -/

/-- The anchor's own outgoing frame, closed at the byte reached (R16). -/
def cutOwn (sent : Option Nat) (s : State) : List OutFrame :=
  match sent with
  | none => []
  | some n => (s.link.out.take 1).map fun f => { f with symbols := f.symbols.take n }

/-- The anchor enters DEFERRED (R16, R17, R37): the frame is forwarded, the RING report queued, ACTIVE
channels fail, posts end LOST, receive entries close, race time freezes, and no survey runs. The number of the
cycle frame last emitted stays, for a Restart (R14, R24, notes/assumptions/56.md). -/
def enterDeferred (serial : Serial) (frames : List OutFrame) (s : State) : State :=
  let s1 := queueRing (.anchorConflict serial) (sendFrames frames (setRing .deferred s))
  let s2 := closeAllRing (ringLoss (failActive .deferred s1))
  let s3 := s2.withTime (freezeByRing .deferred s2.time)
  (s3.withCyc { s3.cyc with nextBoundary := none }).withSurvey
    { s3.survey with run := none }

/-- A frame with another anchor's serial reaches an anchor that emits: a lower serial sends it to
DEFERRED, a higher one has no effect (R16). -/
def foreignTaken (k : FrameKind) (syms : List RxSym) (serial : Serial) (sent : Option Nat) (s : State) :
    State :=
  if serial.toNat < (ownSerial s).toNat then
    enterDeferred serial
      (cutOwn sent s ++ [{ kind := k, symbols := throughput k syms, looped := false }]) s
  else s

/-- The frame reaches an anchor in DEFERRED with its receiver UP, which forwards it untouched (R17). -/
def deferredForward (k : FrameKind) (syms : List RxSym) (s : State) : State :=
  sendFrames [{ kind := k, symbols := throughput k syms, looped := false }] s

/-- The anchor emits and its receiver is UP, so it takes frames (R14, R16). -/
def anchorTakes (s : State) : Bool := actingAnchor s && s.link.rx == .up

/-- The anchor is in DEFERRED with its receiver UP (R17). -/
def deferredTakes (s : State) : Bool := s.cyc.ring == .deferred && s.link.rx == .up

/-- The serial of a frame whose header, or collect header, is good (R16). -/
def frameSerial (k : FrameKind) (syms : List RxSym) : Option Serial :=
  match k with
  | .cycle => (parseHeader (headerPart syms)).map (·.serial)
  | .collect => (parseCollectHeader (syms.take 13)).map (·.serial)

/-- A cycle frame comes back to an anchor that emits (R14, R16). -/
def anchorCycle (f : RxFrame) (s : State) : State :=
  match parseHeader (headerPart f.symbols) with
  | none => s
  | some h =>
    if h.serial ≠ ownSerial s then
      if isSolo s then s else foreignTaken .cycle f.symbols h.serial none s
    else if isValidReturn f h s then validReturn h f.symbols s
    else s

/-- A collect frame comes back to an anchor that emits (R16, R29, R30). -/
def anchorCollect (f : RxFrame) (roundTrip : Nat) (s : State) : State :=
  match parseCollectHeader (f.symbols.take 13) with
  | none => s
  | some h =>
    if h.serial ≠ ownSerial s then
      if isSolo s then s else foreignTaken .collect f.symbols h.serial none s
    else
      match s.survey.run, parseEntries h.count (f.symbols.drop 13) with
      | some r, some entries =>
        if s.cyc.ring = .surveying ∧ f.ending = .endSymbol ∧ passAwaited s r h then
          judgePass r h.overflow entries (measuredTrip s roundTrip) s
        else s
      | _, _ => s

end Sys2Proof.Machine
end

