-- ==== Sys2Proof/Machine/NodeOps.lean ====
section
/-! DEFINITION. A cycle frame at a node: the header test, link and race time, the GO schedule, the header
marks, and the blocks and slots as they pass (R6 to R11, R40 to R49, R66, R68, R94, R104, R107, R109, R116,
R119 to R121, R150). -/

namespace Sys2Proof.Machine

open Sys2Proof

/-! ## The header test (R9) -/

/-- The outcomes of the header test (R9). -/
inductive RingTest where
  | fresh
  | rejoin
  | notMapped
deriving DecidableEq, Repr, Inhabited

/-- The test of a valid header against the address, the surveyed epoch and the mapped epoch (R9). -/
def ringTest (h : Header) (s : State) : RingTest :=
  if h.epoch = s.survey.surveyedEpoch ∧ h.epoch ≠ s.cyc.mappedEpoch ∧ lists h.map (address s) then .fresh
  else if h.epoch = s.cyc.mappedEpoch ∧ h.epoch ≠ 0 ∧ lists h.map (address s) then .rejoin
  else .notMapped

/-- The position at which a header's map lists this station. R9 has it taken from the header on which the station
becomes MAPPED. A rejoin header taken in MAPPED whose map lists the address at another place gives that place from
then on (DESIGN CHOICE, notes/assumptions/89.md). -/
def positionIn (h : Header) (s : State) : Nat := (positionOf h.map (address s)).getD 0

/-- The node becomes or stays MAPPED (R9). -/
def becomeMapped (t : RingTest) (h : Header) (s : State) : State :=
  let was := s.cyc.ring
  let s1 := setRing .mapped
    (s.withCyc { s.cyc with mappedEpoch := if t = .fresh then h.epoch else s.cyc.mappedEpoch })
  if t = .fresh ∨ was ≠ .mapped then queueRing (.mapped (positionIn h s)) s1 else s1

/-- The node becomes or stays UNMAPPED; on entry race time freezes with NOT MAPPED and the starvation count
and clear mark return to 0 (R9, R44, R75). -/
def becomeUnmapped (s : State) : State :=
  if s.cyc.ring = .unmapped then s
  else
    let s1 := queueRing .unmapped (setRing .unmapped s)
    (s1.withTime (freezeByRing .notMapped s1.time)).withSlots (forgetClaim s1.slots)

/-- The mirrors take the header, the silence count starts again, and the ring state follows the test (R6,
R9, R10). -/
def takeHeader (t : RingTest) (h : Header) (s : State) : State :=
  let s1 := s.withCyc { s.cyc with mirrors := some h, silence := some 0 }
  match t with
  | .fresh => becomeMapped .fresh h s1
  | .rejoin => becomeMapped .rejoin h s1
  | .notMapped => becomeUnmapped s1

/-! ## Link time (R40, R41) -/

/-- The offset of the station's position plus e, in µs (R40). -/
def transit (h : Header) (position : Nat) (slow : Bool) : Nat :=
  offsetAt h.map position + (if slow then 26 else 25)

/-- The link target now (R40). -/
def linkTarget (h : Header) (t : Nat) : Micros := h.linkStamp + BitVec.ofNat 32 t

/-- Link time is aligned to the target: forward at once, or by waiting (R40). -/
def alignLink (target : Micros) (t : Timebase) : Timebase :=
  let d := signedDiff target t.link
  if 0 < d then { t with link := target, linkStatus := .counting, linkWait := 0 }
  else if d = 0 then { t with linkStatus := .counting, linkWait := 0 }
  else { t with linkStatus := .waiting, linkWait := (-d).toNat }

/-- The re-alignment step (R41). -/
def realignLink (target : Micros) (t : Timebase) : Timebase :=
  { t with link := target, linkStatus := .counting, linkWait := 0 }

/-! ## Race time and the GO schedule (R44, R45, R47, R49) -/

/-- The schedule becomes NONE and race time 0 with the status ZERO (R44). -/
def resetSchedule (t : Timebase) : Timebase := zeroRace { t with go := .none }

/-- The race target now, before saturation (R45). -/
def raceTarget (h : Header) (t : Nat) : Nat := h.raceStamp.toNat + t

/-- Race time is aligned to the target: forward at once, or by waiting; at the top it stays, and a
RESULTS freeze is not aligned (R42, R45). The wait is the whole unsigned difference of R45, though R38
bounds it by 2,147,483,648 (notes/assumptions/58.md). A wait that ends at the target or at the top leaves 0
remaining (DESIGN CHOICE, notes/assumptions/88.md). -/
def alignRace (target : Nat) (t : Timebase) : Timebase :=
  if t.raceStatus = .frozen .results then t
  else if t.race.toNat = topMicros then { t with raceStatus := .frozen .top, raceWait := 0 }
  else if t.race.toNat < target then setRaceTime target .counting t
  else if t.race.toNat = target then { t with raceStatus := .counting, raceWait := 0 }
  else { t with raceStatus := .waiting, raceWait := t.race.toNat - target }

/-- A COUNTDOWN header with the schedule FIRED: a count frozen by the ring runs again (R44). -/
def thawRace (t : Timebase) : Timebase :=
  match t.raceStatus with
  | .frozen .lost => resumeRace t
  | .frozen .notMapped => resumeRace t
  | .frozen .standby => resumeRace t
  | _ => t

/-- The schedule is ARMED or FIRED with a G other than the header's (R44). -/
def otherGo (h : Header) (g : GoSchedule) : Bool :=
  match goTimeOf g with
  | none => false
  | some v => v != h.goTime

/-- The timebase at the header before the alignment: reset by IDLE and GATHERING in every ring state, and
while MAPPED reset by another G and armed by COUNTDOWN (R44, R47, notes/assumptions/20.md). -/
def scheduleFromHeader (mapped : Bool) (h : Header) (t : Timebase) : Timebase :=
  if h.phase = .idle ∨ h.phase = .gathering then resetSchedule t
  else if mapped then
    let t1 := if otherGo h t.go then resetSchedule t else t
    if h.phase = .countdown ∧ t1.go = .none then { t1 with go := .armed h.goTime } else t1
  else t

/-- Link time has reached G (R48). -/
def reached (g : Micros) (t : Timebase) : Bool := decide (0 ≤ signedDiff t.link g)

/-- A COUNTDOWN header at a MAPPED node, after the alignment (R44, R48, R49). -/
def raceOnCountdown (s : State) : State :=
  match s.time.go with
  | .none => s
  | .armed g => if reached g s.time then fireGo g (signedDiff s.time.link g).toNat .counting s else s
  | .fired _ => s.withTime (thawRace s.time)

/-- A RUNNING or CLOSING header at a MAPPED node, after the alignment (R44, R45, R49). -/
def raceOnRunning (h : Header) (target : Nat) (s : State) : State :=
  match s.time.go with
  | .none => fireGo h.goTime target (if h.held then .frozen .held else .counting) s
  | .armed _ => fireGo h.goTime target (if h.held then .frozen .held else .counting) s
  | .fired _ =>
    s.withTime (if h.held then freezeRace .held s.time else alignRace target s.time)

/-- A RESULTS header at a MAPPED node (R44, R49, notes/assumptions/21.md). -/
def raceOnResults (h : Header) (s : State) : State :=
  match s.time.go with
  | .none =>
    s.withTime { freezeRace .results s.time with race := h.raceStamp, go := .fired h.goTime }
  | .armed _ =>
    s.withTime { freezeRace .results s.time with race := h.raceStamp, go := .fired h.goTime }
  | .fired _ => s.withTime (freezeRace .results s.time)

/-- The race rows of R44 and R49 at a MAPPED node, after the alignment of link time. -/
def raceFromHeader (h : Header) (target : Nat) (s : State) : State :=
  match h.phase with
  | .idle => s
  | .gathering => s
  | .countdown => raceOnCountdown s
  | .running => raceOnRunning h target s
  | .closing => raceOnRunning h target s
  | .results => raceOnResults h s

/-- The timebase takes a valid header, the ring state having followed its test (R40 to R49). -/
def timeFromHeader (t : RingTest) (h : Header) (slow : Bool) (s : State) : State :=
  let tr := transit h (positionIn h s) slow
  let b := scheduleFromHeader (t != .notMapped) h s.time
  match t with
  | .notMapped => s.withTime b
  | .fresh => raceFromHeader h (raceTarget h tr) (s.withTime (realignLink (linkTarget h tr) b))
  | .rejoin => raceFromHeader h (raceTarget h tr) (s.withTime (alignLink (linkTarget h tr) b))

/-! ## The header's reports and the station's marks (R66, R94, R107, R109, R150) -/

/-- The placing and confirmed flag that a summary shows for car `c`. -/
def shownPlacing (l : List CarSummary) (c : Nat) : PlacedCar :=
  { car := c, placing := (summaryAt l c).placing, confirmed := (summaryAt l c).confirmed }

/-- The PHASE report of a MAPPED node: the phase or held flag differs from the mirrors' (R94). R94 names no event
in it: the report has the layout of R78 with the event HEADER (DESIGN CHOICE, notes/assumptions/90.md). -/
def phaseFromHeader (old : Option Header) (h : Header) (s : State) : State :=
  if mirrorPhase old ≠ h.phase ∨ mirrorHeld old ≠ h.held then
    queueEvent (.phase h.phase h.held h.causes s.time.race .header) s
  else s

/-- The PLACING report of a MAPPED node, cause HEADER: the cars that differ from the mirrors', and the
placings of all 8 cars, with no finish times (R150). The racing count, which R150 does not name, is the
number of cars that the header shows RACING (notes/assumptions/53.md). -/
def placingFromHeader (old : Option Header) (h : Header) (s : State) : State :=
  let changed := ((List.range 8).filter fun c =>
    shownPlacing (mirrorSummary old) c != shownPlacing h.summary c).map (shownPlacing h.summary)
  if changed.isEmpty then s
  else
    queueEvent
      (.placing .header changed ((List.range 8).map fun c => (shownPlacing h.summary c, 0))
        (h.summary.filter fun k => k.state == .racing).length) s

/-- The marks that the station writes into the header (R11, R66, R107, R109). -/
def headerMarks (mapped : Bool) (h : Header) (s : State) : HeaderMarks :=
  if mapped then
    { claim := claimWrite s.slots (setting s 5) h.claim (positionIn h s),
      roll := if h.rollEnable && answersRoll s then rollBit s else 0,
      attention := if s.seat.attentionPending then attentionBit (address s) else 0,
      newcomer := false }
  else { noMarks with newcomer := true }

/-- The slot engine at a header taken while MAPPED: the posting settings as they stand govern this frame, the
clear mark is cleared and the budgets used return to 0 (R56, R60, R66). -/
def slotsAtHeader (p : Posting) (e : SlotEngine) : SlotEngine := { freshBudgets p e with claimClear := false }

/-- Everything that a valid header does at a node before the blocks pass (R6). The PHASE and PLACING reports are
those of a node that is MAPPED after the header's own test, whatever its ring state before (DESIGN CHOICE,
notes/assumptions/91.md). -/
def headerWork (t : RingTest) (h : Header) (slow : Bool) (s : State) : State :=
  let old := s.cyc.mirrors
  let s1 := timeFromHeader t h slow (takeHeader t h s)
  let s2 := if t = .notMapped then s1 else placingFromHeader old h (phaseFromHeader old h s1)
  let s3 := summarySet h.summary (mirrorSeats h.summary s2)
  if t = .fresh then setReleaseMarks s3 else s3

/-! ## Blocks and slots (R68, R116, R120) -/

/-- The seat and own report that a MAPPED node writes into block `c` (R116). -/
def insertion (s : State) (h : Header) (c : Nat) : Option (Nat × CarData) :=
  (List.range (seatCount s)).findSome? fun k =>
    if seatedWith s k c ∧ showsOwned h.summary c (address s) k then
      (ownRecord s k).map fun d => (k, d)
    else none

/-- Block `c` passes a MAPPED node: replaced by its own report, or handed to the replica store and
forwarded as received (R116, R120). A short frame ends at the same byte (R4). -/
def passBlock (h : Header) (syms : List RxSym) (c : Nat) (s : State) : List RxSym × State :=
  let part := blockPart c syms
  match insertion s h c with
  | some (k, d) => ((ownBlock s c k d).take part.length, s)
  | none => (part, takeBlock h.summary c part s)

/-- The blocks from car `c` on. -/
def passBlocks (h : Header) (syms : List RxSym) : Nat → Nat → State → List RxSym × State
  | _, 0, s => ([], s)
  | c, n + 1, s =>
    let r := passBlock h syms c s
    let t := passBlocks h syms (c + 1) n r.2
    (r.1 ++ t.1, t.2)

/-- The pass after one slot: the conditions of R65's second case are looked at again. -/
def lookAgain (s : State) (p : SlotPass) : SlotPass := { p with starving := p.starving && wantsSlot s }

/-- Slot `i` passes a MAPPED node: the row of R68, then the posting step. A slot whose check fails is
forwarded as received. -/
def passSlot (free : Bool) (syms : List RxSym) (i : Nat) (p : SlotPass) (s : State) :
    List RxSym × SlotPass × State :=
  let part := slotPart i syms
  match parseSlot part with
  | none => (part, p, s)
  | some slot =>
    let r :=
      match slot with
      | none => (none, s)
      | some m => nodeSlot i m s
    let q := postStep free i r.1 p r.2
    (if q.1 = slot then part else toSymbols (slotBytes q.1), lookAgain q.2.2 q.2.1, q.2.2)

/-- The slots from place `i` on. -/
def passSlots (free : Bool) (syms : List RxSym) :
    Nat → Nat → SlotPass → State → List RxSym × SlotPass × State
  | _, 0, p, s => ([], p, s)
  | i, n + 1, p, s =>
    let r := passSlot free syms i p s
    let t := passSlots free syms (i + 1) n r.2.1 r.2.2
    (r.1 ++ t.1, t.2)

/-- The rest of a frame at a MAPPED node, after the header's work (R60, R65, R66, R68, R73, R116). -/
def passMapped (h : Header) (syms : List RxSym) (s : State) : List RxSym × State :=
  let head := forwardHeader (headerPart syms) (headerMarks true h s)
  let s1 := s.withSlots (slotsAtHeader (postingNow s) s.slots)
  let b := passBlocks h syms 0 8 s1
  let r := passSlots (claimFree h.claim (positionIn h s)) syms 0 6 (SlotPass.start b.2) b.2
  (head ++ b.1 ++ r.1,
    r.2.2.withSlots (countWaited (afterFrame r.2.1 r.2.2.slots)))

/-- The rest of a frame at an UNMAPPED node: the newcomer flag is written and all else forwarded as
received (R8, R11, R73). -/
def passUnmapped (h : Header) (syms : List RxSym) (s : State) : List RxSym × State :=
  (forwardHeader (headerPart syms) (headerMarks false h s) ++ (syms.take 608).drop 64,
    s.withSlots (countWaited s.slots))

/-- A cycle frame passes a node: the symbols that leave it, and the state after. A header whose check
fails leaves the frame as received and changes nothing (R6, R7). -/
def nodeCycle (slow : Bool) (syms : List RxSym) (s : State) : List RxSym × State :=
  match parseHeader (headerPart syms) with
  | none => (syms.take 608, s)
  | some h =>
    let s0 := endWaitedOut s
    let t := ringTest h s0
    let s1 := headerWork t h slow s0
    if t = .notMapped then passUnmapped h syms s1 else passMapped h syms s1

/-! ## Reception at a node (R2, R3, R8) -/

/-- The station is a node that takes frames: its ring state takes them and its receiver is UP. -/
def nodeReceives (s : State) : Bool := nodeRole s && nodeTakes s.cyc.ring && s.link.rx == .up

/-- A node forwards the symbols that a frame has become. -/
def forwarded (k : FrameKind) (r : List RxSym × State) : State :=
  sendFrames [{ kind := k, symbols := r.1, looped := false }] r.2

/-- The first symbols of a frame, up to and with the eighth of eight consecutive code errors; none when the
frame has no such run (R2). `run` is the run so far. -/
def errorCut : Nat → List RxSym → Option (List RxSym)
  | _, [] => none
  | _, .data b :: rest => (errorCut 0 rest).map (.data b :: ·)
  | run, .codeError :: rest =>
    if 7 ≤ run then some [.codeError] else (errorCut (run + 1) rest).map (.codeError :: ·)

/-- A node takes a frame of a kind: `ended` says that END ended it. -/
def nodeTake (k : FrameKind) (ended slow : Bool) (syms : List RxSym) (s : State) : State :=
  match k with
  | .cycle => forwarded .cycle (nodeCycle slow syms s)
  | .collect => forwarded .collect (nodeCollect ended syms s)

/-- A frame ended before its END, as each ring state takes it: a node as a short frame, an anchor as a short
return or, by `sent`, as a foreign frame, a DEFERRED anchor by forwarding it (R2, R4, R7, R16, R17). -/
def takeCut (k : FrameKind) (slow : Bool) (syms : List RxSym) (sent : Option Nat) (s : State) : State :=
  if nodeReceives s then nodeTake k false slow syms s
  else if deferredTakes s then deferredForward k syms s
  else if anchorTakes s then
    match frameSerial k syms with
    | none => s
    | some serial =>
      if serial ≠ ownSerial s ∧ isSolo s = false then foreignTaken k syms serial sent s else s
  else s

/-- A frame reaches the receiver. In UP it is heard, and taken whole by `take`; eight consecutive code errors
in it end it there and take the receiver DOWN. In DOWN it is not taken (R2, R4, notes/assumptions/29.md). -/
def hearFrame (k : FrameKind) (f : RxFrame) (sent : Option Nat) (take : State → State) (s : State) : State :=
  if s.link.rx = .up then
    match errorCut 0 f.symbols with
    | none => take (heard s)
    | some cut => setReceiver .down 0 0 (takeCut k f.slowHeader cut sent s)
  else heard s

/-- A frame reaches a station that is no anchor: one in a ring state that takes frames handles and forwards
it (R8, R20, R28). -/
def nodeFrame (k : FrameKind) (f : RxFrame) (s : State) : State :=
  if anchorRole s then s
  else
    hearFrame k f none
      (fun s => if nodeReceives s then nodeTake k (f.ending == .endSymbol) f.slowHeader f.symbols s else s) s

/-- The frame in progress that an event ends is taken as a short frame (R2, R4, R20). The `e` of its header,
25 or 26, is free (notes/assumptions/29.md). -/
def cutFrame (cut : Option CutFrame) (s : State) : State :=
  match cut with
  | none => s
  | some c =>
    let v := freeValue s
    takeCut c.kind (v.1 % 2 == 1) c.symbols c.sent v.2

/-- The run of code errors behind the symbols of a frame, from a run of `n` before them (R2). -/
def errorRunAfter : Nat → List RxSym → Nat
  | n, [] => n
  | _, .data _ :: rest => errorRunAfter 0 rest
  | n, .codeError :: rest => errorRunAfter (n + 1) rest

/-- A frame in progress that the station itself ends is heard up to there: its START sets the run of code errors
to 0, its symbols are counted one by one, and the eighth of eight consecutive code errors takes the receiver
DOWN. In DOWN it is no frame, and its START sets the fill run to 0 (R2, R20). -/
def hearCut (c : CutFrame) (s : State) : State :=
  if s.link.rx = .up then
    match errorCut 0 c.symbols with
    | none =>
      let u := cutFrame (some c) s
      u.withLink { u.link with errorRun := errorRunAfter 0 c.symbols }
    | some cut => setReceiver .down 0 0 (cutFrame (some { c with symbols := cut }) s)
  else heard s

/-! ## Ring loss (R10) -/

/-- The silence limit: 4 cycle periods of the period code in the mirrors (R10). -/
def silenceMicros (s : State) : Nat := 4 * mirrorPeriod s

/-- The node enters LOST (R10, R44, R75, R161). -/
def enterLost (s : State) : State :=
  let n := (queuedMessages s.slots).length
  let s1 := closeAllRing (queueRing (.lost n) (ringLoss (setRing .lost s)))
  s1.withTime (freezeByRing .lost s1.time)

/-- The node returns to LISTENING from UNMAPPED (R10, R75). -/
def returnListening (s : State) : State :=
  let s1 := queueRing .listening (setRing .listening s)
  (s1.withCyc { s1.cyc with silence := some 0 }).withSlots (forgetClaim s1.slots)

end Sys2Proof.Machine
end

