-- ==== Sys2Proof/Machine/TimeOps.lean ====
section
/-! DEFINITION. How far off each timed event is: the µs until it comes about by the counts that run, none
when it cannot come about as the part stands (notes/assumptions/2.md); and what the firing of GO does at
each ring state. -/

namespace Sys2Proof.Machine

open Sys2Proof

/-- An event that comes after some µs: they pass, and it takes effect. Without such an instant nothing
changes (notes/assumptions/2.md, notes/assumptions/5.md). -/
def atInstant (remaining : Option Nat) (act : State → State) (s : State) : State :=
  match remaining with
  | none => s
  | some d => act (elapse d s)

/-- The µs to the end of the link wait (R38). -/
def linkWaitRemaining (t : Timebase) : Option Nat :=
  if t.linkStatus = .waiting then some t.linkWait else none

/-- The µs to the end of the race wait (R38). -/
def raceWaitRemaining (t : Timebase) : Option Nat :=
  if t.raceStatus = .waiting then some t.raceWait else none

/-- The µs to the top of race time (R42). -/
def raceTopRemaining (t : Timebase) : Option Nat :=
  if t.raceStatus = .counting then some (topMicros - t.race.toNat) else none

/-- The µs until link time reaches a G, by counting (R48). -/
def reachRemaining (g : Micros) (t : Timebase) : Option Nat :=
  match t.linkStatus with
  | .frozen => none
  | .waiting => if reached g t then some 0 else none
  | .counting => if reached g t then some 0 else some (g - t.link).toNat

/-- The µs until an ARMED schedule fires: an anchor in DEFERRED does not fire, nor does a station that is
UNCONFIGURED (R48). -/
def goRemaining (s : State) : Option Nat :=
  match s.time.go with
  | .armed g =>
    if s.cyc.ring = .deferred ∨ s.cyc.ring = .unconfigured then none else reachRemaining g s.time
  | .none => none
  | .fired _ => none

/-- The µs until race time stands at or above a value, by counting. -/
def raceRemaining (v : Nat) (t : Timebase) : Option Nat :=
  if topMicros < v then none
  else if v ≤ t.race.toNat then some 0
  else if t.raceStatus = .counting then some (v - t.race.toNat)
  else none

/-- The µs until the close deadline is reached (R145, R146). -/
def deadlineRemaining (s : State) : Option Nat :=
  if actingAnchor s ∧ (s.race.phase = .running ∨ s.race.phase = .closing) then
    match s.race.deadline with
    | none => none
    | some d => raceRemaining d.toNat s.time
  else none

/-- The lost limit in µs of race time (R93). -/
def lostMicros (s : State) : Nat := setup s 4 * 100000

/-- The µs until RACING car `c` reaches the lost limit (R93). -/
def lostRemaining (s : State) (c : Nat) : Option Nat :=
  if actingAnchor s ∧ isRacing s.race c then
    match (carAt s c).timer with
    | none => none
    | some t => raceRemaining (t.toNat + lostMicros s) s.time
  else none

/-- The µs until a PENDING referral times out (R99, R101). -/
def referralRemaining (s : State) : Option Nat :=
  if actingAnchor s then
    match s.race.referral with
    | .pending _ _ left => some left
    | .free => none
    | .decided _ _ _ _ => none
  else none

/-- The µs until the idle timer of receive entry `i` reaches its limit (R158, R161). -/
def idleRemaining (s : State) (i : Nat) : Option Nat :=
  (recvAt s i).map fun e => e.limit - e.idle

/-- The µs until the silence limit of a node expires; in LISTENING and LOST an expired count has no further
instant (R10). -/
def silenceRemaining (s : State) : Option Nat :=
  match s.cyc.silence with
  | none => none
  | some c =>
    if s.cyc.ring = .mapped ∨ s.cyc.ring = .unmapped then some (silenceMicros s - c)
    else if (s.cyc.ring = .listening ∨ s.cyc.ring = .lost) ∧ c < silenceMicros s then
      some (silenceMicros s - c)
    else none

/-- The µs to the next cycle boundary of an anchor that emits (R13). -/
def boundaryRemaining (s : State) : Option Nat :=
  if actingAnchor s then s.cyc.nextBoundary else none

/-- The freeze cause that holds at a node's firing, if one does (R48). -/
def firingStatus (r : RingState) : RaceStatus :=
  match r with
  | .lost => .frozen .lost
  | .unmapped => .frozen .notMapped
  | .listening => .frozen .notMapped
  | .standby => .frozen .standby
  | _ => .counting

/-- The ARMED schedule fires by counting (R48). -/
def fireNow (s : State) : State :=
  match s.time.go with
  | .armed g =>
    if anchorRole s then fireAtAnchor g s
    else fireGo g (signedDiff s.time.link g).toNat (firingStatus s.cyc.ring) s
  | .none => s
  | .fired _ => s

/-- The silence limit expires (R10). -/
def silenceExpires (s : State) : State :=
  match s.cyc.ring with
  | .mapped => enterLost s
  | .unmapped => returnListening s
  | _ => s

end Sys2Proof.Machine
end

