-- ==== Sys2Proof/Machine/AnchorFrames.lean ====
section
/-! DEFINITION. The anchor's boundaries and the frames that reach it: CYCLE_BOUNDARY (R13),
RETURN_MISS_LIMIT (R14), CYCLE_RETURN (R14), FOREIGN_FRAME (R16), COLLECT_RETURN (R30), CLAIM_AGE_LIMIT
(R67). -/

namespace Sys2Proof.Machine

open Sys2Proof

/-- CYCLE_BOUNDARY (R13): the anchor emits a cycle frame or a collect pass and places the next boundary. -/
def execCycleBoundary (s : State) : Host.Outcome State Fault Refusal :=
  .next (atInstant (boundaryRemaining s) atBoundary s)

/-- RETURN_MISS_LIMIT (R14): the missed-return count reaches M in CYCLING and the anchor enters STALLED at
that emission. -/
def execReturnMissLimit (s : State) : Host.Outcome State Fault Refusal :=
  .next
    (atInstant (if missLimitDue s then boundaryRemaining s else none)
      (fun s => enterStalled (missReturn s)) s)

/-- A frame at an anchor's receiver: taken by `take` when the anchor emits, forwarded untouched in DEFERRED
(R14, R17). -/
def anchorHears (k : FrameKind) (f : RxFrame) (sent : Option Nat) (take : State → State) (s : State) : State :=
  hearFrame k f sent
    (fun s =>
      if deferredTakes s then deferredForward k f.symbols s else if anchorTakes s then take s else s) s

/-- The frame that the loop holds, as it comes back: ended by END (R19). -/
def loopReturn (l : LoopFrame) : RxFrame := { symbols := l.symbols, ending := .endSymbol, slowHeader := false }

/-- The frame in the loop comes round: the µs left to it pass, and it leaves the loop
(R19, notes/assumptions/54.md). -/
def comeRound (l : LoopFrame) (s : State) : State :=
  let u := elapse l.left s
  u.withLink { u.link with loop := none }

/-- A frame reaches an anchor: at an ANCHOR station from the input pins; at a SOLO station from the loop, so
that the frame in the loop alone is taken and the pins are ignored (R17, R19). -/
def anchorFrame (k : FrameKind) (f : RxFrame) (sent : Option Nat) (take : State → State) (s : State) : State :=
  if isSolo s then
    match s.link.loop with
    | none => s
    | some l => if l.kind = k ∧ f = loopReturn l then anchorHears k f sent take (comeRound l s) else s
  else if anchorRole s then anchorHears k f sent take s
  else s

/-- CYCLE_RETURN (R14): a cycle frame returns; a valid return is handed to the race controller and the slot
engine, and any other is discarded. -/
def execCycleReturn (f : RxFrame) (s : State) : Host.Outcome State Fault Refusal :=
  .next (anchorFrame .cycle f none (anchorCycle f) s)

/-- A foreign frame is judged by its serial (R16). -/
def foreignJudged (k : FrameKind) (f : RxFrame) (sent : Option Nat) (s : State) : State :=
  match frameSerial k f.symbols with
  | none => s
  | some serial => if serial ≠ ownSerial s then foreignTaken k f.symbols serial sent s else s

/-- FOREIGN_FRAME (R16): a frame with another anchor serial; a higher serial is discarded and a lower one
sends the anchor to DEFERRED. A SOLO station receives only its own frames, and ignores it (R17, R19). -/
def execForeignFrame (kind : FrameKind) (f : RxFrame) (sent : Option Nat) (s : State) :
    Host.Outcome State Fault Refusal :=
  if isSolo s then .next s else .next (anchorFrame kind f sent (foreignJudged kind f sent) s)

/-- COLLECT_RETURN (R30): a returned pass is measured and judged: overflow, duplicate, stability, round
trip, length. -/
def execCollectReturn (f : RxFrame) (roundTrip : Nat) (s : State) : Host.Outcome State Fault Refusal :=
  .next (anchorFrame .collect f none (anchorCollect f roundTrip) s)

/-- CLAIM_AGE_LIMIT (R67): at the boundary a claim of age 64 is cleared, so that the header carries 0. -/
def execClaimAgeLimit (s : State) : Host.Outcome State Fault Refusal :=
  .next
    (atInstant (if claimAgeDue s then boundaryRemaining s else none)
      (fun s => s.withSlots { s.slots with claim := 0, claimAge := 0 }) s)

end Sys2Proof.Machine
end

