-- ==== Sys2Proof/Machine/CommandOps.lean ====
section
/-! DEFINITION. What the cabinet commands share: the tests of the anchor's commands and of the commands that
post, and the writes and reads of the race setup and grid tables (R58, R79, R89, R90, R169). -/

namespace Sys2Proof.Machine

open Sys2Proof

/-- The first tests of an anchor command: configured, the frame's length, the role (R79). -/
def anchorTests (fits : Bool) (s : State) : List (Bool × RefusalReason) :=
  baseTests fits s ++ [(actingAnchor s, .role)]

/-- The first tests of a command that a seat or a game board posts with: an OBSERVER and an anchor in
DEFERRED refuse it with ROLE (R58, R96, R105, R152, R171). -/
def posterTests (fits : Bool) (s : State) : List (Bool × RefusalReason) :=
  baseTests fits s ++ [(role s != .observer && s.cyc.ring != .deferred, .role)]

/-- The race phase is one of those listed. -/
def phaseIn (s : State) (l : List Phase) : Bool := l.contains s.race.phase

/-- A table entry count lies in a range from 1. -/
def countIn (n size : Nat) : Bool := decide (1 ≤ n) && decide (n ≤ size)

/-- The tests of a race setup or grid write (R79, R89, R90). R89 gives MALFORMED for a count of race setup
values outside its range; R90 gives the grid the range alone, and there it is MALFORMED too
(notes/assumptions/37.md). -/
def tableWriteTests (fits : Bool) (n size : Nat) (phases : List Phase) (s : State) :
    List (Bool × RefusalReason) :=
  baseTests fits s ++
    [(countIn n size, .malformed), (actingAnchor s, .role), (phaseIn s phases, .phase)]

/-- The tests of a race setup or grid read: taken at an anchor in every phase and ring state, and at an
UNCONFIGURED station (R89, R90). -/
def tableReadTests (fits : Bool) (n size : Nat) (s : State) : List (Bool × RefusalReason) :=
  [(fits, .malformed), (countIn n size, .malformed), (anchorRole s || !configured s, .role)]

/-- A race setup write stores its values, each clamped, and carries them as stored (R89). -/
def writeSetup (start : Nat) (values : List Nat) (s : State) : State × ReplyBody :=
  let places := wrapPlaces 9 start values.length
  let table := writeAt setupRange s.race.setup (places.zip values)
  (s.withRace { s.race with setup := table }, .done (.values (readAt table places)))

/-- A race setup read returns consecutive entries (R89). -/
def readSetup (start count : Nat) (s : State) : State × ReplyBody :=
  (s, .done (.values (readAt s.race.setup (wrapPlaces 9 start count))))

/-- A grid write stores its values, each clamped (R90), and its reply carries them as stored
(R163, notes/assumptions/68.md). -/
def writeGrid (start : Nat) (values : List Nat) (s : State) : State × ReplyBody :=
  let places := wrapPlaces 30 start values.length
  let table := writeAt gridRange s.race.grid (places.zip values)
  (s.withRace { s.race with grid := table }, .done (.values (readAt table places)))

/-- A grid read returns consecutive entries (R90). -/
def readGrid (start count : Nat) (s : State) : State × ReplyBody :=
  (s, .done (.values (readAt s.race.grid (wrapPlaces 30 start count))))

/-- The phases in which the grid is written (R90). -/
def gridPhases : List Phase := [.idle, .gathering]

/-- A message that the part tags joins the urgent queue, and the reply TAKEN carries its tag (R57, R58). -/
def postUrgent (k : MsgKind) (dest : Nat) (payload : List Byte) (seat : Nat) (s : State) :
    State × ReplyBody :=
  let r := queueTagged k dest payload seat s
  (r.1, .taken (.tag r.2))

/-- A command taken with DONE and no result data. -/
def done (s : State) : State × ReplyBody := (s, .done .none)

end Sys2Proof.Machine
end

