-- ==== Sys2Proof/Machine/BulkCommands.lean ====
section
/-! DEFINITION. The commands of the bulk unit: Bulk Open, Bulk Data, Bulk Abort (R152, R153, R156). -/

namespace Sys2Proof.Machine

open Sys2Proof

/-- The channel number is 1 or 2. -/
def channelKnown (ch : Nat) : Bool := ch == 1 || ch == 2

/-- Channel `ch` is ACTIVE. -/
def channelActive (s : State) (ch : Nat) : Bool := (chanAt s ch).state == .active

/-- The channel that a Bulk Open makes (R152). -/
def openedChannel (peer total : Nat) (optEnd optEach : Bool) : SendChannel :=
  { SendChannel.reset with state := .active, peer := peer, total := total, remaining := total,
                           optEnd := optEnd, optEach := optEach }

/-- BULK_OPEN (R152). -/
def execBulkOpen (fits : Bool) (channel peer total : Nat) (optEnd optEach : Bool) (s : State) :
    Host.Outcome State Fault Refusal :=
  .next
    (takeCommand .bulkOpen
      (fun s => tested
        (posterTests fits s ++
          [(channelKnown channel && decide (peer < 15) && total != 0, .malformed),
           (peer != address s, .self), (ringReady s, .notMapped), (!channelActive s channel, .busy)])
        (fun s => done (setChan channel (openedChannel peer total optEnd optEach) s)) s) s)

/-- The tests of Bulk Data (R153). -/
def dataTests (fits : Bool) (channel : Nat) (bytes : List Byte) (s : State) :
    List (Bool × RefusalReason) :=
  baseTests fits s ++
    [(channelKnown channel && !bytes.isEmpty, .malformed),
     (channelActive s channel && !(chanAt s channel).abortPending, .length),
     (decide ((chanAt s channel).buffer.length + bytes.length ≤ 256), .full),
     (decide ((chanAt s channel).supplied + bytes.length ≤ (chanAt s channel).total), .length)]

/-- The channel after Bulk Data: the bytes join the tail of the buffer (R153). -/
def suppliedChannel (bytes : List Byte) (c : SendChannel) : SendChannel :=
  { c with buffer := c.buffer ++ bytes, supplied := c.supplied + bytes.length }

/-- Bulk Data is acted on; it may make a ready segment (R153, R154). -/
def dataAct (channel : Nat) (bytes : List Byte) (s : State) : State × ReplyBody :=
  let c := suppliedChannel bytes (chanAt s channel)
  (makeReady channel (setChan channel c s), .done (.bulk c.buffer.length (c.total - c.supplied)))

/-- BULK_DATA (R153). -/
def execBulkData (fits : Bool) (channel : Nat) (bytes : List Byte) (s : State) :
    Host.Outcome State Fault Refusal :=
  .next
    (takeCommand .bulkData
      (fun s => tested (dataTests fits channel bytes s) (dataAct channel bytes) s) s)

/-- No segment of the channel's stream has been posted (R156). -/
def nothingPosted (c : SendChannel) : Bool := c.nextSeq == 0 && c.out.isNone

/-- Bulk Abort is acted on (R156). -/
def abortAct (channel : Nat) (s : State) : State :=
  let c := chanAt s channel
  if c.state = .active ∧ c.abortPending = false then
    if nothingPosted c then failChannel channel .aborted s
    else makeReady channel (setChan channel { c with abortPending := true, buffer := [], ready := none } s)
  else s

/-- BULK_ABORT (R156). -/
def execBulkAbort (fits : Bool) (channel : Nat) (s : State) : Host.Outcome State Fault Refusal :=
  .next
    (takeCommand .bulkAbort
      (fun s => tested (baseTests fits s ++ [(channelKnown channel, .malformed)])
        (fun s => done (abortAct channel s)) s) s)

end Sys2Proof.Machine
end

