-- ==== Sys2Proof/Machine/LinkEvents.lean ====
section
/-! DEFINITION. POWER_RESET and the events of the receiver and of the silence count: LOSS_OF_SIGNAL,
FILL_RUN_LIMIT, ERROR_RUN_LIMIT, SILENCE_LIMIT (R2, R10, R179). -/

namespace Sys2Proof.Machine

open Sys2Proof

/-- POWER_RESET (R179): every block returns to its reset values. The factory serial is fixed in the part,
LOCK# keeps its level, and the commands that wait and the counter of free values are the model's. -/
def execPowerReset (s : State) : Host.Outcome State Fault Refusal :=
  .next
    (((State.reset.withSettings
        { SettingsUnit.reset with entries := settingsDefaults (ownSerial s), lock := s.settings.lock }).withFreeCount
          s.freeCount).withPending s.pending)

/-- The receiver takes its symbols from the input pins: not in a SOLO station (R2, R19). -/
def takesPins (s : State) : Bool := !isSolo s

/-- The internal loop carries nothing but FILL: no frame goes round it (R3, R19). -/
def loopIdle (s : State) : Bool := isSolo s && s.link.loop.isNone

/-- The receiver hears the symbols of a gap: from the pins, or at a SOLO station from the loop, which gives
FILL alone (R2, R19). -/
def hearsGap (gap : List GapSymbol) (s : State) : Bool :=
  takesPins s || (loopIdle s && gap.all (· == .fill))

/-- LOSS_OF_SIGNAL (R2): UP becomes DOWN, cutting a frame in progress; both runs become 0. -/
def execLossOfSignal (cut : Option CutFrame) (s : State) :
    Host.Outcome State Fault Refusal :=
  if takesPins s then
    if s.link.rx = .up then .next (setReceiver .down 0 0 (cutFrame cut s))
    else .next (s.withLink { s.link with fillRun := 0, errorRun := 0 })
  else .next s

/-- The FILL symbols that a run still lacks (R2). -/
def fillsLacking (s : State) : List GapSymbol := List.replicate (64 - s.link.fillRun) .fill

/-- FILL_RUN_LIMIT (R2): the FILL symbols that the run lacks are counted one by one, and the receiver becomes UP
when the fill run so reaches 64 in DOWN (notes/assumptions/65.md). -/
def execFillRunLimit (s : State) : Host.Outcome State Fault Refusal :=
  if hearsGap (fillsLacking s) s then .next (hearGap (fillsLacking s) s) else .next s

/-- The run of code errors in a frame in progress reaches 8 in UP: the frame ends, and the receiver becomes
DOWN with both runs 0. In DOWN there is no frame in progress (R2). -/
def errorsInside (c : CutFrame) (s : State) : State :=
  if s.link.rx = .up then setReceiver .down 0 0 (cutFrame (some c) s) else s

/-- ERROR_RUN_LIMIT (R2): the symbols of a gap, of any kind, are counted one by one, and the receiver becomes
DOWN when the error run reaches 8 in UP, or UP when the fill run reaches 64 in DOWN; or a run of code errors
ends a frame in progress (notes/assumptions/65.md). -/
def execErrorRunLimit (run : ErrorRun) (s : State) : Host.Outcome State Fault Refusal :=
  match run with
  | .between gap => if hearsGap gap s then .next (hearGap gap s) else .next s
  | .inside c => if takesPins s then .next (errorsInside c s) else .next s

/-- SILENCE_LIMIT (R10): the silence count reaches 4 cycle periods; MAPPED becomes LOST and UNMAPPED
returns to LISTENING. -/
def execSilenceLimit (s : State) : Host.Outcome State Fault Refusal :=
  .next (atInstant (silenceRemaining s) silenceExpires s)

end Sys2Proof.Machine
end

