-- ==== Sys2Proof/Machine/MessageCommands.lean ====
section
/-! DEFINITION. The commands that queue messages: Poll, Clear Stations, Game, and the remote forms of Table
Write and Table Read (R58, R111, R112, R171, R174). -/

namespace Sys2Proof.Machine

open Sys2Proof

/-- The tests of a command that queues an urgent message to one station (R58). -/
def unicastTests (station : Nat) (s : State) : List (Bool × RefusalReason) :=
  [(station != address s, .self), (decide (station ≤ 14), .malformed)]

/-- The queue of a class has room, or QUEUE FULL (R58). -/
def roomTest (cls : MsgClass) (s : State) : List (Bool × RefusalReason) :=
  [(queueRoom s.slots cls, .queueFull)]

/-- POLL (R111). -/
def execPoll (fits : Bool) (station : Nat) (s : State) : Host.Outcome State Fault Refusal :=
  .next
    (takeCommand .poll
      (fun s => tested (anchorTests fits s ++ unicastTests station s ++ roomTest .urgent s)
        (postUrgent .poll station [] 0) s) s)

/-- CLEAR_STATIONS (R112). -/
def execClearStations (fits : Bool) (s : State) : Host.Outcome State Fault Refusal :=
  .next
    (takeCommand .clearStations
      (fun s => tested
        (anchorTests fits s ++ [(phaseIn s [.idle], .phase)] ++ roomTest .urgent s)
        (postUrgent .clearStations 15 [] 0) s) s)

/-- The class of a Game command, URGENT standing in for an unknown one, which is refused (R171). -/
def gameClass (cls : Option MsgClass) : MsgClass := cls.getD .urgent

/-- The tests of Game (R58, R171). -/
def gameTests (fits : Bool) (dest : Nat) (cls : Option MsgClass) (tag : Nat) (payload : List Byte)
    (s : State) : List (Bool × RefusalReason) :=
  posterTests fits s ++
    [(dest != address s, .self),
     (decide (dest ≤ 15) && decide (payload.length ≤ 24) && cls.isSome, .malformed),
     (ringReady s, .notMapped), (!tagInUse s.slots .game tag, .busy)] ++ roomTest (gameClass cls) s

/-- GAME (R171). -/
def execGame (fits : Bool) (dest : Nat) (cls : Option MsgClass) (tag : Nat) (payload : List Byte)
    (s : State) : Host.Outcome State Fault Refusal :=
  .next
    (takeCommand .game
      (fun s => tested (gameTests fits dest cls tag payload s)
        (fun s => (s.withSlots (enqueue .game (gameClass cls) dest tag payload 0 s.slots),
          .taken (.tag tag))) s) s)

/-- The table is one that a Table Write or Table Read may name (R173, R174). -/
def tableKnown : TableName → Bool
  | .settings => true
  | .raceSetup => true
  | .grid => true
  | .unknown _ => false

/-- The tests of the remote forms (R174). -/
def remoteTests (fits : Bool) (station : Nat) (table : TableName) (n size : Nat) (s : State) :
    List (Bool × RefusalReason) :=
  anchorTests fits s ++ unicastTests station s ++
    [(tableKnown table && countIn n size, .malformed)] ++ roomTest .urgent s

/-- REMOTE_TABLE_WRITE (R174). -/
def execRemoteTableWrite (fits : Bool) (station : Nat) (table : TableName) (start : Nat)
    (values : List Nat) (s : State) : Host.Outcome State Fault Refusal :=
  .next
    (takeCommand .remoteTableWrite
      (fun s => tested (remoteTests fits station table values.length 10 s)
        (postUrgent .tableWrite station (tableWritePayload table start values) 0) s) s)

/-- REMOTE_TABLE_READ (R174). -/
def execRemoteTableRead (fits : Bool) (station : Nat) (table : TableName) (start count : Nat)
    (s : State) : Host.Outcome State Fault Refusal :=
  .next
    (takeCommand .remoteTableRead
      (fun s => tested (remoteTests fits station table count 20 s)
        (postUrgent .tableRead station (tableReadPayload table start count) 0) s) s)

end Sys2Proof.Machine
end

