-- ==== Sys2Proof/Machine/NodeFrames.lean ====
section
/-! DEFINITION. The frames that a node takes: NODE_CYCLE_FRAME (R6) and NODE_COLLECT_FRAME (R28). -/

namespace Sys2Proof.Machine

open Sys2Proof

/-- NODE_CYCLE_FRAME (R6): a node receives and forwards a cycle frame, judging the header and then
handling blocks and slots in arrival order. -/
def execNodeCycleFrame (f : RxFrame) (s : State) : Host.Outcome State Fault Refusal :=
  .next (nodeFrame .cycle f s)

/-- NODE_COLLECT_FRAME (R28): a node takes a collect frame, restarts its silence count and forwards it,
appending its entry or setting the overflow mark. -/
def execNodeCollectFrame (f : RxFrame) (s : State) : Host.Outcome State Fault Refusal :=
  .next (nodeFrame .collect f s)

end Sys2Proof.Machine
end

