-- ==== Sys2Proof/Machine/PortEvents.lean ====
section
/-! DEFINITION. The events of the cabinet port and of LOCK#: COMMAND_BYTE_WRITE, REPORT_BYTE_READ,
EMPTY_FRAME, DAMAGED_FRAME, UNKNOWN_COMMAND, REPLY_PLACED, REPORT_PENDING_PLACED, NOTICE_PLACED,
LOCK_CHANGE (R163 to R167, R175, R179). -/

namespace Sys2Proof.Machine

open Sys2Proof

/-- The first byte of a frame is written: its length byte, which a full FIFO drops (R165). -/
def writeLength (full : Bool) (b : Byte) (p : CabinetPort) : CabinetPort :=
  if full then { p with frames := p.frames ++ [{ bytes := [], damaged := true, code := none }] }
  else if b = 0 then { p with frames := p.frames ++ [{ bytes := [b], damaged := false, code := none }] }
  else
    { p with writing := some { need := b.toNat, bytes := [b], damaged := false, codeNext := true,
                               code := none } }

/-- The frame being written after one more byte, dropped when the FIFO is full (R165). -/
def writtenByte (full : Bool) (b : Byte) (w : Writing) : Writing :=
  { need := w.need - 1, bytes := if full then w.bytes else w.bytes ++ [b],
    damaged := w.damaged || full, codeNext := false,
    code := if w.codeNext && !full then some b else w.code }

/-- A further byte of a frame is written; the last completes it (R165). -/
def writeNext (full : Bool) (b : Byte) (w : Writing) (p : CabinetPort) : CabinetPort :=
  let v := writtenByte full b w
  if v.need = 0 then
    { p with writing := none,
             frames := p.frames ++ [{ bytes := v.bytes, damaged := v.damaged, code := v.code }] }
  else { p with writing := some v }

/-- COMMAND_BYTE_WRITE (R165, R179): a byte goes into the command FIFO, or is dropped while it is full. -/
def execCommandByteWrite (b : Byte) (s : State) : Host.Outcome State Fault Refusal :=
  match s.port.writing with
  | none => .next (s.withPort (writeLength (cfull s) b s.port))
  | some w => .next (s.withPort (writeNext (cfull s) b w s.port))

/-- The port after one byte of its oldest report is read; the report leaves with its last byte (R166,
R179). -/
def readByte (r : Report) (p : CabinetPort) : CabinetPort :=
  if reportSize r ≤ p.headRead + 1 then
    { p with reports := p.reports.tail, headRead := 0, dataOut := reportByteAt r p.headRead }
  else { p with headRead := p.headRead + 1, dataOut := reportByteAt r p.headRead }

/-- REPORT_BYTE_READ (R166, R179): the oldest byte of the report FIFO, or 0 when it is empty. -/
def execReportByteRead (s : State) : Host.Outcome State Fault Refusal :=
  match s.port.reports with
  | [] => .next (s.withPort { s.port with dataOut := 0 })
  | r :: _ => .next (s.withPort (readByte r s.port))

/-- An empty frame: a length byte of 0 (R163). -/
def emptyHead (p : CabinetPort) : Bool :=
  match p.frames with
  | [] => false
  | f :: _ => !f.damaged && decide (f.bytes.length ≤ 1)

/-- EMPTY_FRAME (R163): the empty frame at the head of the command FIFO is removed, with no reply.
While a reply waits for room it stays at the head, as a command does (R164, notes/assumptions/85.md). -/
def execEmptyFrame (s : State) : Host.Outcome State Fault Refusal :=
  if s.port.waiting.isNone ∧ emptyHead s.port then .next (dropFrame s) else .next s

/-- What the reply to a damaged frame names: its command code, if the frame kept it (R163, R165). A frame that
kept its length byte but lost its code byte has no code to name, as one that lost its length byte
(notes/assumptions/87.md). -/
def damagedName (f : PortFrame) : ReplyTo :=
  match f.code with
  | none => .nothing
  | some b => .code b

/-- DAMAGED_FRAME (R163, R165): a frame that lost bytes is refused with MALFORMED and not acted on. -/
def execDamagedFrame (s : State) : Host.Outcome State Fault Refusal :=
  if s.port.waiting.isNone then
    match s.port.frames with
    | [] => .next (giveReply .nothing (.refused .malformed) s)
    | f :: _ =>
      if f.damaged then .next (giveReply (damagedName f) (.refused .malformed) (dropFrame s)) else .next s
  else .next s

/-- UNKNOWN_COMMAND (R163): a code that names no command is refused with UNKNOWN. -/
def execUnknownCommand (code : Byte) (s : State) : Host.Outcome State Fault Refusal :=
  if canTake s then .next (giveReply (.code code) (.refused .unknown) (dropFrame s)) else .next s

/-- REPLY_PLACED (R164): the waiting reply finds room and is placed, and command taking resumes. -/
def execReplyPlaced (s : State) : Host.Outcome State Fault Refusal :=
  match s.port.waiting with
  | none => .next s
  | some r =>
    if roomFor s r then .next (placeReport r (s.withPort { s.port with waiting := none })) else .next s

/-- The outcome and order of a REPORT PENDING entry. -/
def pendingOutcome (o : Outstanding) : Option (Nat × MsgOutcome) :=
  match o.progress with
  | .waiting => none
  | .reportPending out n => some (n, out)

/-- The REPORT PENDING entry whose outcome was taken first, with that outcome (R74). -/
def firstPending : List Outstanding → Option (Outstanding × Nat × MsgOutcome)
  | [] => none
  | o :: rest =>
    match pendingOutcome o, firstPending rest with
    | none, r => r
    | some p, none => some (o, p)
    | some p, some q => if q.2.1 < p.1 then some q else some (o, p)

/-- The OUTCOME report of an entry (R74). -/
def outcomeOfEntry (o : Outstanding) (out : MsgOutcome) : Report := .outcome o.kind o.tag o.dest out

/-- REPORT_PENDING_PLACED (R74): the first pending outcome finds room, is placed and its entry is freed. -/
def execReportPendingPlaced (s : State) : Host.Outcome State Fault Refusal :=
  match firstPending s.slots.outstanding with
  | none => .next s
  | some (o, _, out) =>
    if roomFor s (outcomeOfEntry o out) then
      .next
        (placeReport (outcomeOfEntry o out)
          (s.withSlots { s.slots with outstanding := s.slots.outstanding.erase o }))
    else .next s

/-- NOTICE_PLACED (R167): the NOTICE report is placed with the set, and the set is emptied. -/
def execNoticePlaced (s : State) : Host.Outcome State Fault Refusal :=
  if s.port.notices.isEmpty then .next s
  else if roomFor s (.notice s.port.notices) then
    .next (placeReport (.notice s.port.notices) (s.withPort { s.port with notices := [] }))
  else .next s

/-- LOCK_CHANGE (R175): the level of LOCK#; neither the flag nor the list changes. -/
def execLockChange (asserted : Bool) (s : State) : Host.Outcome State Fault Refusal :=
  .next (s.withSettings { s.settings with lock := asserted })

end Sys2Proof.Machine
end

