-- ==== Sys2Proof/Machine/RaceCommands.lean ====
section
/-! DEFINITION. The race commands of the anchor: Survey, Open and Close Gathering, Start Race, Abort Race,
Hold, Resume, Clear Race, race setup and grid, Admit and Refuse (R25, R46, R79 to R90, R100). -/

namespace Sys2Proof.Machine

open Sys2Proof

/-- The phases in which Survey is taken: IDLE, GATHERING and RESULTS, and RUNNING or CLOSING while held
(R25). -/
def surveyPhase (s : State) : Bool :=
  phaseIn s [.idle, .gathering, .results] ||
    (phaseIn s [.running, .closing] && anyCause s.race.causes)

/-- SURVEY (R25): a survey starts and the newcomer latch is cleared. -/
def execSurvey (fits : Bool) (s : State) : Host.Outcome State Fault Refusal :=
  .next
    (takeCommand .survey
      (fun s => tested
        (anchorTests fits s ++ [(surveyPhase s, .phase), (s.survey.run.isNone, .busy)])
        (fun s => (startSurvey (s.withSurvey { s.survey with latch := false }), .taken .none)) s) s)

/-- OPEN_GATHERING (R80): IDLE becomes GATHERING. -/
def execOpenGathering (fits : Bool) (s : State) : Host.Outcome State Fault Refusal :=
  .next
    (takeCommand .openGathering
      (fun s => tested (anchorTests fits s ++ [(phaseIn s [.idle], .phase)])
        (fun s => done (queuePhase .openGathering
          ((s.withRace { s.race with phase := .gathering }).withTime (zeroRace s.time)))) s) s)

/-- Every ENTERED car becomes VACANT (R80). -/
def vacateEntered (r : RaceControl) : RaceControl :=
  { r with cars := r.cars.map fun k => if k.state = .entered then Car.vacant else k }

/-- CLOSE_GATHERING (R80, R102): GATHERING becomes IDLE, ENTERED cars become VACANT, and a pending referral
is answered DECLINED NOT GATHERING. -/
def execCloseGathering (fits : Bool) (s : State) : Host.Outcome State Fault Refusal :=
  .next
    (takeCommand .closeGathering
      (fun s => tested (anchorTests fits s ++ [(phaseIn s [.gathering], .phase)])
        (fun s => done (decideReferral (.declined .notGathering) (queuePhase .closeGathering
          ((s.withRace { vacateEntered s.race with phase := .idle }).withTime (zeroRace s.time))))) s) s)

/-- At least one car is ENTERED (R46). -/
def someEntered (s : State) : Bool := s.race.cars.any fun k => k.state == .entered

/-- G for a lead in ms: link time plus the clamped lead (R46). -/
def goTimeFor (link : Micros) (lead : Nat) : Micros :=
  link + BitVec.ofNat 32 (clamp 1000 10000 lead * 1000)

/-- START_RACE (R46, R81, R102): GATHERING becomes COUNTDOWN, the schedule is ARMED with G, and a pending
referral is answered DECLINED NOT GATHERING. -/
def execStartRace (fits : Bool) (lead : Nat) (s : State) : Host.Outcome State Fault Refusal :=
  .next
    (takeCommand .startRace
      (fun s => tested
        (anchorTests fits s ++ [(phaseIn s [.gathering], .phase), (someEntered s, .phase)])
        (fun s => done (decideReferral (.declined .notGathering) (queuePhase .startRace
          ((s.withRace { s.race with phase := .countdown }).withTime
            { zeroRace s.time with go := .armed (goTimeFor s.time.link lead) })))) s) s)

/-- The race emptied: IDLE, every car VACANT, no finish list, no deadline, no cause, no countdown fault
mark (R82, R83). -/
def emptiedRace (r : RaceControl) : RaceControl :=
  { emptyTable r with phase := .idle, causes := HeldCauses.none, countdownMark := false }

/-- Race time 0, ZERO, and the schedule NONE (R43, R51). -/
def emptiedTime (t : Timebase) : Timebase := zeroRace { t with go := .none }

/-- The race is emptied by Abort Race or Clear Race, with its PHASE report, and a PLACING report if the
finish list was not empty (R82, R83, R148). -/
def emptyRace (ev : PhaseEvent) (s : State) : State :=
  let s1 := queuePhase ev ((s.withRace (emptiedRace s.race)).withTime (emptiedTime s.time))
  if s.race.finish.isEmpty then s1 else queuePlacing .cleared s.race s1

/-- ABORT_RACE (R51, R82). -/
def execAbortRace (fits : Bool) (s : State) : Host.Outcome State Fault Refusal :=
  .next
    (takeCommand .abortRace
      (fun s => tested
        (anchorTests fits s ++ [(phaseIn s [.countdown, .running, .closing], .phase)])
        (fun s => done (emptyRace .abortRace s)) s) s)

/-- HOLD (R85): COMMAND joins the held causes. -/
def execHold (fits : Bool) (s : State) : Host.Outcome State Fault Refusal :=
  .next
    (takeCommand .hold
      (fun s => tested (anchorTests fits s ++ [(phaseIn s [.running, .closing], .phase)])
        (fun s => done (setCauses { s.race.causes with command := true } .hold s)) s) s)

/-- Resume is acted on: COMMAND leaves the held causes, and the reply carries the still-held mark when
FAULT remains (R85). -/
def resumeAct (s : State) : State × ReplyBody :=
  (setCauses { s.race.causes with command := false } .resume s,
    .done (if s.race.causes.fault then .stillHeld else .none))

/-- RESUME (R85). -/
def execResume (fits : Bool) (s : State) : Host.Outcome State Fault Refusal :=
  .next
    (takeCommand .resume
      (fun s => tested
        (anchorTests fits s ++ [(phaseIn s [.running, .closing] && s.race.causes.command, .phase)])
        resumeAct s) s)

/-- CLEAR_RACE (R83). -/
def execClearRace (fits : Bool) (s : State) : Host.Outcome State Fault Refusal :=
  .next
    (takeCommand .clearRace
      (fun s => tested (anchorTests fits s ++ [(phaseIn s [.results], .phase)])
        (fun s => done (emptyRace .clearRace s)) s) s)

/-- RACE_SETUP_WRITE (R89). -/
def execRaceSetupWrite (fits : Bool) (start : Nat) (values : List Nat) (s : State) :
    Host.Outcome State Fault Refusal :=
  .next
    (takeCommand .raceSetupWrite
      (fun s => tested (tableWriteTests fits values.length 9 [.idle] s) (writeSetup start values) s) s)

/-- RACE_SETUP_READ (R89). -/
def execRaceSetupRead (fits : Bool) (start count : Nat) (s : State) : Host.Outcome State Fault Refusal :=
  .next
    (takeCommand .raceSetupRead
      (fun s => tested (tableReadTests fits count 9 s) (readSetup start count) s) s)

/-- GRID_WRITE (R90). -/
def execGridWrite (fits : Bool) (start : Nat) (values : List Nat) (s : State) :
    Host.Outcome State Fault Refusal :=
  .next
    (takeCommand .gridWrite
      (fun s => tested (tableWriteTests fits values.length 30 gridPhases s) (writeGrid start values) s) s)

/-- GRID_READ (R90). -/
def execGridRead (fits : Bool) (start count : Nat) (s : State) : Host.Outcome State Fault Refusal :=
  .next
    (takeCommand .gridRead
      (fun s => tested (tableReadTests fits count 30 s) (readGrid start count) s) s)

/-! ## Admit and Refuse (R100) -/

/-- The referral record is PENDING. -/
def referralPending (s : State) : Bool :=
  match s.race.referral with
  | .pending _ _ _ => true
  | .free => false
  | .decided _ _ _ _ => false

/-- The Admit argument is a car number 0 to 7 or "any" (R100). -/
def choiceKnown : CarChoice → Bool
  | .any => true
  | .car c => decide (c < 8)

/-- The car that an Admit gives, or the refusal (R100). -/
def admittedCar (r : RaceControl) : CarChoice → Except RefusalReason Nat
  | .any =>
    match lowestVacant r with
    | some c => .ok c
    | none => .error .full
  | .car c => if (r.cars.getD c Car.vacant).state = .vacant then .ok c else .error .occupied

/-- Admit is acted on (R98, R100, R101). -/
def admitAct (choice : CarChoice) (s : State) : State × ReplyBody :=
  match s.race.referral, admittedCar s.race choice with
  | .pending j _ _, .ok c =>
    (decideReferral (.accepted c) (s.withRace (setCar c (enteredCar j) s.race)), .done (.car c))
  | .pending _ _ _, .error e => (s, .refused e)
  | _, _ => (s, .refused .noReferral)

/-- ADMIT (R100). The record is tested before the car number (notes/assumptions/69.md). -/
def execAdmit (fits : Bool) (choice : CarChoice) (s : State) : Host.Outcome State Fault Refusal :=
  .next
    (takeCommand .admitCar
      (fun s => tested
        (anchorTests fits s ++ [(referralPending s, .noReferral), (choiceKnown choice, .malformed)])
        (admitAct choice) s) s)

/-- REFUSE (R100). -/
def execRefuse (fits : Bool) (s : State) : Host.Outcome State Fault Refusal :=
  .next
    (takeCommand .refuse
      (fun s => tested (anchorTests fits s ++ [(referralPending s, .noReferral)])
        (fun s => done (decideReferral (.declined .refused) s)) s) s)

end Sys2Proof.Machine
end

