-- ==== Sys2Proof/Machine/StationCommands.lean ====
section
/-! DEFINITION. The station's own commands: Configure, Restart, Standby, Resume Ring, Status, Local Trigger
(R20 to R22, R53, R168 to R170). -/

namespace Sys2Proof.Machine

open Sys2Proof

/-! ## Configure (R8, R13, R18, R19, R169) -/

/-- The seat count range of a role code (R169). -/
def seatRange : Nat → Option (Nat × Nat)
  | 1 => some (0, 2) | 2 => some (1, 2) | 3 => some (0, 0) | 4 => some (1, 2) | _ => none

/-- The Configure fields lie in their ranges (R169). -/
def configureInRange (address role seats : Nat) : Bool :=
  decide (address ≤ 14) &&
    (match seatRange role with
     | none => false
     | some r => decide (r.1 ≤ seats) && decide (seats ≤ r.2))

/-- Settings entries 12 to 16 take the Configure fields (R172). -/
def storeConfigure (address role seats : Nat) (title revision : Half) (u : SettingsUnit) : SettingsUnit :=
  { u with
    entries := ((((u.entries.set 12 address).set 13 role).set 14 seats).set 15 title.toNat).set 16
      revision.toNat }

/-- A node enters LISTENING: the silence count starts from zero and a RING report is queued (R8, R10). -/
def enterListening (s : State) : State :=
  let s1 := setRing .listening s
  queueRing .listening (s1.withCyc { s1.cyc with silence := some 0 })

/-- The receiver of a SOLO station turns to the loop, which holds what the station has sent into it: UP with
both runs 0, and LINK UP if it was DOWN (R19). -/
def turnToLoop (s : State) : State :=
  if s.link.rx = .up then s.withLink { s.link with fillRun := 0, errorRun := 0 }
  else setReceiver .up 0 0 s

/-- Link time from 0 (R13, R39). -/
def zeroLink (t : Timebase) : Timebase := { t with link := 0, linkStatus := .counting, linkWait := 0 }

/-- An ANCHOR or SOLO enters SURVEYING, and its first collect pass is emitted at once (R13, R24). -/
def beginAnchor (s : State) : State :=
  let s1 := startSurvey (s.withTime (zeroLink s.time))
  placeBoundary (emitPass (if isSolo s1 then turnToLoop s1 else s1))

/-- Configure is acted on (R169). -/
def configureAct (address role seats : Nat) (title revision : Half) (s : State) : State × ReplyBody :=
  let s1 := s.withSettings (storeConfigure address role seats title revision s.settings)
  done (if anchorRole s1 then beginAnchor s1 else enterListening s1)

/-- CONFIGURE (R169). -/
def execConfigure (fits : Bool) (address role seats : Nat) (title revision : Half) (s : State) :
    Host.Outcome State Fault Refusal :=
  .next
    (takeCommand .configure
      (fun s => tested
        [(fits, .malformed), (!configured s, .configured),
         (configureInRange address role seats, .range)]
        (configureAct address role seats title revision) s) s)

/-! ## Restart (R22, R170 and the Restart columns) -/

/-- The frame being written when Restart empties the command FIFO has lost its bytes there (R165, R170,
notes/assumptions/12.md). -/
def emptiedWriting (w : Writing) : Writing := { w with bytes := [], damaged := true, code := none }

/-- Both FIFOs and the notice set emptied (R165 to R167, R170). -/
def restartPort (p : CabinetPort) : CabinetPort :=
  { p with frames := [], writing := p.writing.map emptiedWriting, reports := [], headRead := 0,
           waiting := none, notices := [] }

/-- The timebase after Restart (R38, R39). -/
def restartTime (anchor : Bool) (t : Timebase) : Timebase :=
  { t with link := if anchor then 0 else t.link, linkStatus := .counting, linkWait := 0, race := 0,
           raceStatus := .zero, raceWait := 0, go := .none, latch := none, computation := none }

/-- The survey unit after Restart (R23): at an anchor a new survey starts. -/
def restartSurvey (anchor : Bool) (u : SurveyUnit) : SurveyUnit :=
  { SurveyUnit.reset with counter := u.counter, surveyedEpoch := u.surveyedEpoch,
                          run := if anchor then some newRun else none }

/-- The µs to the boundary after Restart: the boundaries go on, and where none runs, in DEFERRED, the
first lies a free time ahead, at most one period (notes/assumptions/23.md). -/
def restartBoundary (s : State) : Option Nat × State :=
  if anchorRole s then
    match s.cyc.nextBoundary with
    | some d => (some d, s)
    | none =>
      let v := freeValue s
      (some (v.1 % (periodMicros (setup s 6) + 1)), v.2)
  else (none, s)

/-- The cycle processor after Restart (R22, R117). The cycle frame last emitted before it may still make a valid
return until the first collect pass goes out (R14, R24); the map being empty, the relay clears each of its
slots, so that the slots held for the next frame are EMPTY (R15, R71, notes/assumptions/56.md). The newcomer
flag of the previous valid return is forgotten, so that a flag set on such a return appears (R26,
notes/assumptions/86.md). -/
def restartCyc (anchor : Bool) (boundary : Option Nat) (c : CycleProc) : CycleProc :=
  { CycleProc.reset with ring := c.ring, mappedEpoch := c.mappedEpoch, awaited := c.awaited,
                         silence := if anchor then none else some 0, nextBoundary := boundary }

/-- Every block takes its Restart value (R170). -/
def restartBlocks (s0 : State) : State :=
  let a := anchorRole s0
  let b := restartBoundary s0
  let s := b.2
  setRing (if a then .surveying else .listening)
    { s with
      cyc := restartCyc a b.1 s.cyc, survey := restartSurvey a s.survey, time := restartTime a s.time,
      slots := SlotEngine.reset,
      race := { RaceControl.reset with setup := s.race.setup, grid := s.race.grid },
      seat := SeatUnit.reset, replica := List.replicate 8 ReplicaEntry.empty, fieldNumber := 0,
      dropped := 0, bulk := BulkUnit.reset, port := restartPort s.port }

/-- RESTART (R170): the reply DONE is the first report of the emptied FIFO. -/
def execRestart (fits : Bool) (s : State) : Host.Outcome State Fault Refusal :=
  .next (takeCommand .restart (fun s => tested (baseTests fits s) (fun s => done (restartBlocks s)) s) s)

/-! ## Standby and Resume Ring (R20, R21) -/

/-- The timebase at Standby: link time FROZEN, race time FROZEN unless ZERO (R38, R39, R44). -/
def standbyTime (t : Timebase) : Timebase :=
  freezeByRing .standby { t with linkStatus := .frozen, linkWait := 0 }

/-- The node goes to STANDBY (R20, R75, R157, R161); a frame in progress has been cut before. -/
def enterStandby (s : State) : State :=
  let s1 := setRing .standby (s.withCyc { s.cyc with silence := none })
  let s2 := closeAllRing (ringLoss (failActive .standby s1))
  queueRing .standby (s2.withTime (standbyTime s2.time))

/-- The frame being forwarded, if there is one, is heard and forwarded up to the taking of Standby (R2, R20). -/
def standbyCut (cut : Option CutFrame) (s : State) : State :=
  match cut with
  | none => s
  | some c => hearCut c s

/-- STANDBY (R20). A frame being forwarded is closed at once with END: it is taken as the short frame that it
has become, and the node then leaves the ring. -/
def execStandby (args : StandbyArgs) (s : State) : Host.Outcome State Fault Refusal :=
  .next
    (takeCommand .standby
      (fun s => tested (baseTests args.fits s ++ [(nodeRole s, .role)])
        (fun s => done (if s.cyc.ring = .standby then s else enterStandby (standbyCut args.cut s))) s) s)

/-- The node leaves STANDBY for LISTENING; link time counts from its frozen value (R21). -/
def leaveStandby (s : State) : State :=
  enterListening (s.withTime { s.time with linkStatus := .counting })

/-- RESUME_RING (R21). -/
def execResumeRing (fits : Bool) (s : State) : Host.Outcome State Fault Refusal :=
  .next
    (takeCommand .resumeRing
      (fun s => tested (baseTests fits s ++ [(nodeRole s, .role)])
        (fun s => done (if s.cyc.ring = .standby then leaveStandby s else s)) s) s)

/-! ## Status (R168) -/

/-- A LEAVE for seat `k` is queued or outstanding (R95, R105). -/
def leavePending (s : State) (k : Nat) : Bool :=
  (queuedMessages s.slots).any (fun m => m.kind == .leave && m.seat == k) ||
    s.slots.outstanding.any (fun o => o.kind == .leave && o.seat == k)

/-- The timebase part of Status (R55). -/
def timeStatus (s : State) : StatusData :=
  .time s.time.link s.time.linkStatus s.time.linkWait s.time.race s.time.raceStatus s.time.raceWait
    s.time.go s.time.pulse.isSome s.time.latch s.time.computation.isSome
    (if anchorRole s then some s.race.countdownMark else none)
    (if s.cyc.ring = .mapped then (mirrorPosition s).map (offsetAt (mirrorMap s)) else none)

/-- The state that a part selector names; none for a selector that names no part, and for a car number
above 7 (R168). -/
def statusOf (s : State) : StatusPart → Option StatusData
  | .link => some (.link s.link.rx s.link.tx s.link.byp s.cyc.ring s.cyc.mirrors s.cyc.mappedEpoch)
  | .survey =>
    some (.survey s.survey.map s.survey.epoch s.survey.entries
      (s.survey.run.map fun r => (r.attempt, r.pass)) s.survey.surveyedEpoch)
  | .time => some (timeStatus s)
  | .slots =>
    some (.slots s.slots.urgent.length s.slots.normal.length s.slots.outstanding s.slots.starvation
      (if anchorRole s then some (s.slots.claim, s.slots.claimAge) else none) s.slots.held)
  | .race =>
    some (.race s.race.phase s.race.causes s.race.countdownMark s.race.setup s.race.grid
      (finishList s.race) s.race.deadline)
  | .car c =>
    if c < 8 then
      some (.car c (carAt s c) (placingOf s.race.finish c) (confirmedOf s.race.finish c))
    else none
  | .seats =>
    some (.seats s.seat.seats s.seat.ready s.seat.attentionPending s.seat.attentionCode
      [leavePending s 0, leavePending s 1] (if anchorRole s then some s.race.referral else none)
      s.race.roll s.race.attention)
  | .ownReports => some (.ownReports s.seat.own)
  | .replica c => if c < 8 then some (.replica c (entryAt s c)) else none
  | .bulk => some (.bulk s.bulk.send (s.bulk.send.map armed) (s.bulk.send.map doneFlag) s.bulk.recv)
  | .port =>
    some (.port (commandBytes s.port) (reportFree s) s.port.notices (cfull s) (attn s) s.settings.lock
      s.fieldNumber s.dropped)
  | .settings => some (.settings s.settings.entries s.settings.flag s.settings.list)
  | .unknown _ => none

/-- Status is acted on: the state as it stands, or MALFORMED (R168). -/
def statusAct (part : StatusPart) (s : State) : State × ReplyBody :=
  match statusOf s part with
  | none => (s, .refused .malformed)
  | some d => (s, .done (.status d))

/-- STATUS (R168). -/
def execStatus (fits : Bool) (part : StatusPart) (s : State) : Host.Outcome State Fault Refusal :=
  .next (takeCommand .status (fun s => tested [(fits, .malformed)] (statusAct part) s) s)

/-! ## Local Trigger (R53) -/

/-- LOCAL_TRIGGER (R53): the GO pulse starts, in the station's phase IDLE, with no report. -/
def execLocalTrigger (fits : Bool) (s : State) : Host.Outcome State Fault Refusal :=
  .next
    (takeCommand .localTrigger
      (fun s => tested (baseTests fits s ++ [(racePhase s == .idle, .phase)])
        (fun s => done (s.withTime (startPulse s.time))) s) s)

end Sys2Proof.Machine
end

