-- ==== Sys2Proof/Machine/SeatCommands.lean ====
section
/-! DEFINITION. The seat unit's commands: Join, Leave, Set Ready, Request and Withdraw Attention, Car Report
(R96, R105, R107, R109, R114, R115). -/

namespace Sys2Proof.Machine

open Sys2Proof

/-- Seat `k` lies below the seat count and is UNSEATED (R96). -/
def seatFree (s : State) (k : Nat) : Bool :=
  decide (k < seatCount s) && seatAt s k == .unseated

/-- Seat `k` lies below the seat count and is SEATED (R105). -/
def seatTaken (s : State) (k : Nat) : Bool :=
  decide (k < seatCount s) &&
    (match seatAt s k with
     | .seated _ _ => true
     | .unseated => false
     | .requested _ => false)

/-- The referral record is FREE. -/
def referralFree (s : State) : Bool :=
  match s.race.referral with
  | .free => true
  | .pending _ _ _ => false
  | .decided _ _ _ _ => false

/-- The room that a JOIN or LEAVE needs: at a node in the urgent queue, at an anchor none (R96, R105). -/
def urgentRoom (s : State) : Bool := anchorRole s || queueRoom s.slots .urgent

/-- The anchor's own join can be held: outside REFERRED mode, or with the record FREE (R96). -/
def ownJoinRoom (s : State) : Bool := !anchorRole s || setup s 2 != 2 || referralFree s

/-- The join of a seat of this station (R96). -/
def joinRequest (s : State) (seat : Nat) (tag : List Byte) : JoinRequest :=
  { station := address s, seat := seat, tag := tag, title := (signature s).1,
    revision := (signature s).2 }

/-- The destination of a JOIN or LEAVE: the address at position 0 of the map in the mirrors (R57). -/
def anchorAddress (s : State) : Nat := (mirrorAnchor s).getD 15

/-- Join is acted on: the seat becomes REQUESTED, and the JOIN is queued, or processed at once at the
anchor with a tag drawn from the tag counter (R96). -/
def joinAct (seat : Nat) (tag : List Byte) (s : State) : State × ReplyBody :=
  let j := joinRequest s seat tag
  let s1 := setSeat seat (.requested tag) s
  if anchorRole s then
    let t := nextTag s.slots .join
    (ownJoin j (s1.withSlots (advanceTag t s1.slots)), .taken (.tag t))
  else postUrgent .join (anchorAddress s) (joinPayload j) seat s1

/-- JOIN (R96). -/
def execJoin (fits : Bool) (seat : Nat) (tag : List Byte) (s : State) : Host.Outcome State Fault Refusal :=
  .next
    (takeCommand .join
      (fun s => tested
        (posterTests fits s ++
          [(seatFree s seat, .seat), (ringReady s, .notMapped), (ownJoinRoom s, .busy),
           (urgentRoom s, .queueFull)])
        (joinAct seat tag) s) s)

/-- The payload of a LEAVE: the station's address and the seat index (R105). -/
def leaveRequest (s : State) (seat : Nat) : List Byte := beBytes 1 (address s) ++ beBytes 1 seat

/-- Leave is acted on: queued at a node, processed at once at the anchor (R105, notes/assumptions/45.md). -/
def leaveAct (seat : Nat) (s : State) : State × ReplyBody :=
  if anchorRole s then
    let r := processLeave (address s) seat s
    (leaveOutcome seat r.2 r.1, .taken .none)
  else postUrgent .leave (anchorAddress s) (leaveRequest s seat) seat s

/-- LEAVE (R105). -/
def execLeave (fits : Bool) (seat : Nat) (s : State) : Host.Outcome State Fault Refusal :=
  .next
    (takeCommand .leave
      (fun s => tested
        (posterTests fits s ++
          [(seatTaken s seat, .seat), (!leavePending s seat, .busy), (ringReady s, .notMapped),
           (urgentRoom s, .queueFull)])
        (leaveAct seat) s) s)

/-- SET_READY (R107). -/
def execSetReady (fits : Bool) (value : Nat) (s : State) : Host.Outcome State Fault Refusal :=
  .next
    (takeCommand .setReady
      (fun s => tested (baseTests fits s ++ [(decide (value ≤ 1), .malformed)])
        (fun s => done (s.withSeat { s.seat with ready := value == 1 })) s) s)

/-- REQUEST_ATTENTION (R109). -/
def execRequestAttention (fits : Bool) (code : Nat) (s : State) : Host.Outcome State Fault Refusal :=
  .next
    (takeCommand .requestAttention
      (fun s => tested (baseTests fits s ++ [(decide (code ≤ 127), .malformed)])
        (fun s => done (s.withSeat { s.seat with attentionPending := true, attentionCode := code })) s) s)

/-- WITHDRAW_ATTENTION (R109). -/
def execWithdrawAttention (fits : Bool) (s : State) : Host.Outcome State Fault Refusal :=
  .next
    (takeCommand .withdrawAttention
      (fun s => tested (baseTests fits s)
        (fun s => done (s.withSeat { s.seat with attentionPending := false })) s) s)

/-- The stamps of a Car Report: the field latch, or both times at the taking (R115). -/
def reportStamps (t : Timebase) : Micros × Micros := t.latch.getD (t.link, t.race)

/-- The own-report record that a Car Report makes (R113 to R115). -/
def reportRecord (a : CarReportArgs) (t : Timebase) : CarData :=
  { linkStamp := (reportStamps t).1, raceStamp := (reportStamps t).2, x := saturatePosition a.x,
    y := saturatePosition a.y, z := saturatePosition a.z, vx := saturateVelocity a.vx,
    vy := saturateVelocity a.vy, vz := saturateVelocity a.vz, heading := a.heading, yaw := a.yaw,
    laps := a.laps, crossing := a.crossing, appearance := a.appearance }

/-- CAR_REPORT (R114, R115). -/
def execCarReport (fits : Bool) (seat : Nat) (args : CarReportArgs) (s : State) :
    Host.Outcome State Fault Refusal :=
  .next
    (takeCommand .carReport
      (fun s => tested (baseTests fits s ++ [(decide (seat < seatCount s), .seat)])
        (fun s => done
          (s.withSeat { s.seat with own := s.seat.own.set seat (some (reportRecord args s.time)) })) s) s)

end Sys2Proof.Machine
end

