-- ==== Sys2Proof/Machine/TableCommands.lean ====
section
/-! DEFINITION. The local forms of Table Write and Table Read, and the protection commands (R173, R175). -/

namespace Sys2Proof.Machine

open Sys2Proof

/-- A local write of the settings table: each value goes to the next entry that is not read-only, clamped,
and the reply carries the index and stored value of each (R173). -/
def writeLocal (start : Nat) (values : List Nat) (s : State) : State × ReplyBody :=
  let places := writablePlaces start values.length
  let u := writeSettings places values s.settings
  (s.withSettings u, .done (.indexed (places.map fun i => (i, u.entries.getD i 0))))

/-- A local read of the settings table (R173). -/
def readLocal (start count : Nat) (s : State) : State × ReplyBody :=
  (s, .done (.values (readAt s.settings.entries (wrapPlaces 20 start count))))

/-- A local Table Write by the table it names (R173, notes/assumptions/37.md). -/
def localWrite (fits : Bool) (table : TableName) (start : Nat) (values : List Nat) (s : State) :
    State × ReplyBody :=
  match table with
  | .settings =>
    tested (baseTests fits s ++ [(countIn values.length 12, .malformed)]) (writeLocal start values) s
  | .raceSetup => tested (tableWriteTests fits values.length 9 [.idle] s) (writeSetup start values) s
  | .grid => tested (tableWriteTests fits values.length 30 gridPhases s) (writeGrid start values) s
  | .unknown _ => tested (baseTests fits s ++ [(false, .malformed)]) done s

/-- TABLE_WRITE, the local form (R173). -/
def execTableWrite (fits : Bool) (table : TableName) (start : Nat) (values : List Nat) (s : State) :
    Host.Outcome State Fault Refusal :=
  .next (takeCommand .tableWrite (localWrite fits table start values) s)

/-- A local Table Read by the table it names (R173, notes/assumptions/37.md). -/
def localRead (fits : Bool) (table : TableName) (start count : Nat) (s : State) : State × ReplyBody :=
  match table with
  | .settings => tested [(fits, .malformed), (countIn count 20, .malformed)] (readLocal start count) s
  | .raceSetup => tested (tableReadTests fits count 9 s) (readSetup start count) s
  | .grid => tested (tableReadTests fits count 30 s) (readGrid start count) s
  | .unknown _ => tested (baseTests fits s ++ [(false, .malformed)]) done s

/-- TABLE_READ, the local form (R173). -/
def execTableRead (fits : Bool) (table : TableName) (start count : Nat) (s : State) :
    Host.Outcome State Fault Refusal :=
  .next (takeCommand .tableRead (localRead fits table start count) s)

/-- The reply of a protection command carries the flag and the list after it (R175). -/
def protection (u : SettingsUnit) (s : State) : State × ReplyBody :=
  (s.withSettings u, .done (.protection u.flag u.list))

/-- LOCK# is released, or LOCKED (R175). -/
def unlocked (s : State) : Bool := !s.settings.lock

/-- PROTECT_ON (R175). -/
def execProtectOn (fits : Bool) (s : State) : Host.Outcome State Fault Refusal :=
  .next
    (takeCommand .protectOn
      (fun s => tested (baseTests fits s) (fun s => protection { s.settings with flag := true } s) s) s)

/-- PROTECT_OFF (R175). -/
def execProtectOff (fits : Bool) (s : State) : Host.Outcome State Fault Refusal :=
  .next
    (takeCommand .protectOff
      (fun s => tested (baseTests fits s ++ [(unlocked s, .locked)])
        (fun s => protection { s.settings with flag := false } s) s) s)

/-- PROTECTION_LIST_WRITE (R175). An unknown group is tested before the key (notes/assumptions/75.md). -/
def execProtectionListWrite (fits : Bool) (groups : Groups) (unknown : Bool) (s : State) :
    Host.Outcome State Fault Refusal :=
  .next
    (takeCommand .protectionListWrite
      (fun s => tested (baseTests fits s ++ [(!unknown, .malformed), (unlocked s, .locked)])
        (fun s => protection { s.settings with list := groups } s) s) s)

end Sys2Proof.Machine
end

