-- ==== Sys2Proof/Machine/TimeEvents.lean ====
section
/-! DEFINITION. The events of the timebase, the field and the timers: LINK_WAIT_END, RACE_WAIT_END,
RACE_TIME_TOP, GO_FIRE, GO_PULSE_END, FIELD_EDGE, FIELD_COMPUTATION_END, OUTSTANDING_WAIT_LIMIT,
CLOSE_DEADLINE, LOST_CAR_LIMIT, REFERRAL_TIMEOUT, RECEIVE_IDLE_LIMIT. -/

namespace Sys2Proof.Machine

open Sys2Proof

/-- LINK_WAIT_END (R38): the link wait remaining reaches 0 and link time returns to COUNTING. -/
def execLinkWaitEnd (s : State) : Host.Outcome State Fault Refusal :=
  .next
    (atInstant (linkWaitRemaining s.time)
      (fun s => s.withTime { s.time with linkStatus := .counting, linkWait := 0 }) s)

/-- RACE_WAIT_END (R38): the race wait remaining reaches 0 and race time returns to COUNTING. -/
def execRaceWaitEnd (s : State) : Host.Outcome State Fault Refusal :=
  .next (atInstant (raceWaitRemaining s.time) (fun s => s.withTime (resumeRace s.time)) s)

/-- RACE_TIME_TOP (R42): race time reaches 4,294,967,295 and stands FROZEN with the cause TOP. -/
def execRaceTimeTop (s : State) : Host.Outcome State Fault Refusal :=
  .next (atInstant (raceTopRemaining s.time) (fun s => s.withTime (freezeRace .top s.time)) s)

/-- GO_FIRE (R48): link time reaches G with the schedule ARMED, and the schedule fires. -/
def execGoFire (s : State) : Host.Outcome State Fault Refusal :=
  .next (atInstant (goRemaining s) fireNow s)

/-- GO_PULSE_END (R50): the 2 ms run out and the GO output is released. -/
def execGoPulseEnd (s : State) : Host.Outcome State Fault Refusal :=
  .next (atInstant s.time.pulse (fun s => s.withTime { s.time with pulse := none }) s)

/-- The edge is taken: after at least 1 µs of low level, configured, and with no computation in progress
(R54, R179). -/
def edgeTaken (lowMicros : Nat) (s : State) : Bool :=
  decide (1 ≤ lowMicros) && configured s && s.time.computation.isNone

/-- FIELD_EDGE (R54, R127, R178): the field latch takes both times, the field number rises and a
computation starts from the state at the edge. -/
def execFieldEdge (lowMicros : Nat) (s : State) : Host.Outcome State Fault Refusal :=
  if edgeTaken lowMicros s then
    let n := s.fieldNumber + 1
    .next
      (((s.withTime { s.time with latch := some (s.time.link, s.time.race),
                                  computation := some (startComputation s n) }).withFieldNumber n).withFreeCount
        (s.freeCount + 1))
  else .next s

/-- FIELD_COMPUTATION_END (R54, R127, R133, R137): the entries are written, the computation is idle and its
bundle is offered. -/
def execFieldComputationEnd (s : State) : Host.Outcome State Fault Refusal :=
  match s.time.computation with
  | none => .next s
  | some k =>
    .next
      (offerBundle k.bundle
        ((s.withReplica (writeEntries k s.replica)).withTime { s.time with computation := none }))

/-- OUTSTANDING_WAIT_LIMIT (R73): each entry that has reached 18 cycles waited ends with the outcome LOST. -/
def execOutstandingWaitLimit (s : State) : Host.Outcome State Fault Refusal := .next (endWaitedOut s)

/-- CLOSE_DEADLINE (R146): race time reaches the close deadline and every RACING car becomes UNPLACED. -/
def execCloseDeadline (s : State) : Host.Outcome State Fault Refusal :=
  .next (atInstant (deadlineRemaining s) takeDeadline s)

/-- LOST_CAR_LIMIT (R93): the race time since the timer of a RACING car reaches the lost limit, and the car
is RETIRED with the reason LOST. -/
def execLostCarLimit (car : Nat) (s : State) : Host.Outcome State Fault Refusal :=
  .next (atInstant (lostRemaining s car) (retireCar .lost car) s)

/-- REFERRAL_TIMEOUT (R101): a PENDING referral becomes DECIDED with DECLINED NO ANSWER. -/
def execReferralTimeout (s : State) : Host.Outcome State Fault Refusal :=
  .next (atInstant (referralRemaining s) (decideReferral (.declined .noAnswer)) s)

/-- RECEIVE_IDLE_LIMIT (R161): the idle timer of an OPEN entry reaches its limit and the entry closes with
BULK FAILED, reason IDLE. -/
def execReceiveIdleLimit (entry : Nat) (s : State) : Host.Outcome State Fault Refusal :=
  .next (atInstant (idleRemaining s entry) (closeRecv entry .idle) s)

end Sys2Proof.Machine
end

