-- ==== Sys2Proof/Machine/Dispatch.lean ====
section
/-! DEFINITION. One arm for each command: a direct call of its meaning. -/

namespace Sys2Proof.Machine

open Sys2Proof

def exec (i : Instr) (s : State) : Host.Outcome State Fault Refusal :=
  match i with
  | .powerReset => Sys2Proof.Machine.execPowerReset s
  | .lossOfSignal cut => Sys2Proof.Machine.execLossOfSignal cut s
  | .fillRunLimit => Sys2Proof.Machine.execFillRunLimit s
  | .errorRunLimit run => Sys2Proof.Machine.execErrorRunLimit run s
  | .nodeCycleFrame f => Sys2Proof.Machine.execNodeCycleFrame f s
  | .silenceLimit => Sys2Proof.Machine.execSilenceLimit s
  | .cycleBoundary => Sys2Proof.Machine.execCycleBoundary s
  | .returnMissLimit => Sys2Proof.Machine.execReturnMissLimit s
  | .cycleReturn f => Sys2Proof.Machine.execCycleReturn f s
  | .foreignFrame kind f sent => Sys2Proof.Machine.execForeignFrame kind f sent s
  | .nodeCollectFrame f => Sys2Proof.Machine.execNodeCollectFrame f s
  | .collectReturn f roundTrip => Sys2Proof.Machine.execCollectReturn f roundTrip s
  | .linkWaitEnd => Sys2Proof.Machine.execLinkWaitEnd s
  | .raceWaitEnd => Sys2Proof.Machine.execRaceWaitEnd s
  | .raceTimeTop => Sys2Proof.Machine.execRaceTimeTop s
  | .goFire => Sys2Proof.Machine.execGoFire s
  | .goPulseEnd => Sys2Proof.Machine.execGoPulseEnd s
  | .fieldEdge lowMicros => Sys2Proof.Machine.execFieldEdge lowMicros s
  | .fieldComputationEnd => Sys2Proof.Machine.execFieldComputationEnd s
  | .outstandingWaitLimit => Sys2Proof.Machine.execOutstandingWaitLimit s
  | .claimAgeLimit => Sys2Proof.Machine.execClaimAgeLimit s
  | .closeDeadline => Sys2Proof.Machine.execCloseDeadline s
  | .lostCarLimit car => Sys2Proof.Machine.execLostCarLimit car s
  | .referralTimeout => Sys2Proof.Machine.execReferralTimeout s
  | .receiveIdleLimit entry => Sys2Proof.Machine.execReceiveIdleLimit entry s
  | .commandByteWrite b => Sys2Proof.Machine.execCommandByteWrite b s
  | .reportByteRead => Sys2Proof.Machine.execReportByteRead s
  | .emptyFrame => Sys2Proof.Machine.execEmptyFrame s
  | .damagedFrame => Sys2Proof.Machine.execDamagedFrame s
  | .unknownCommand code => Sys2Proof.Machine.execUnknownCommand code s
  | .replyPlaced => Sys2Proof.Machine.execReplyPlaced s
  | .reportPendingPlaced => Sys2Proof.Machine.execReportPendingPlaced s
  | .noticePlaced => Sys2Proof.Machine.execNoticePlaced s
  | .lockChange asserted => Sys2Proof.Machine.execLockChange asserted s
  | .configure fits address role seatCount title revision => Sys2Proof.Machine.execConfigure fits address role seatCount title revision s
  | .restart fits => Sys2Proof.Machine.execRestart fits s
  | .standby args => Sys2Proof.Machine.execStandby args s
  | .resumeRing fits => Sys2Proof.Machine.execResumeRing fits s
  | .status fits part => Sys2Proof.Machine.execStatus fits part s
  | .survey fits => Sys2Proof.Machine.execSurvey fits s
  | .openGathering fits => Sys2Proof.Machine.execOpenGathering fits s
  | .closeGathering fits => Sys2Proof.Machine.execCloseGathering fits s
  | .startRace fits lead => Sys2Proof.Machine.execStartRace fits lead s
  | .abortRace fits => Sys2Proof.Machine.execAbortRace fits s
  | .hold fits => Sys2Proof.Machine.execHold fits s
  | .resume fits => Sys2Proof.Machine.execResume fits s
  | .clearRace fits => Sys2Proof.Machine.execClearRace fits s
  | .raceSetupWrite fits start values => Sys2Proof.Machine.execRaceSetupWrite fits start values s
  | .raceSetupRead fits start count => Sys2Proof.Machine.execRaceSetupRead fits start count s
  | .gridWrite fits start values => Sys2Proof.Machine.execGridWrite fits start values s
  | .gridRead fits start count => Sys2Proof.Machine.execGridRead fits start count s
  | .poll fits station => Sys2Proof.Machine.execPoll fits station s
  | .clearStations fits => Sys2Proof.Machine.execClearStations fits s
  | .admitCar fits choice => Sys2Proof.Machine.execAdmit fits choice s
  | .refuse fits => Sys2Proof.Machine.execRefuse fits s
  | .join fits seat tag => Sys2Proof.Machine.execJoin fits seat tag s
  | .leave fits seat => Sys2Proof.Machine.execLeave fits seat s
  | .setReady fits value => Sys2Proof.Machine.execSetReady fits value s
  | .requestAttention fits code => Sys2Proof.Machine.execRequestAttention fits code s
  | .withdrawAttention fits => Sys2Proof.Machine.execWithdrawAttention fits s
  | .localTrigger fits => Sys2Proof.Machine.execLocalTrigger fits s
  | .carReport fits seat args => Sys2Proof.Machine.execCarReport fits seat args s
  | .game fits dest cls tag payload => Sys2Proof.Machine.execGame fits dest cls tag payload s
  | .bulkOpen fits channel peer total optEnd optEach => Sys2Proof.Machine.execBulkOpen fits channel peer total optEnd optEach s
  | .bulkData fits channel bytes => Sys2Proof.Machine.execBulkData fits channel bytes s
  | .bulkAbort fits channel => Sys2Proof.Machine.execBulkAbort fits channel s
  | .tableWrite fits table start values => Sys2Proof.Machine.execTableWrite fits table start values s
  | .tableRead fits table start count => Sys2Proof.Machine.execTableRead fits table start count s
  | .remoteTableWrite fits station table start values => Sys2Proof.Machine.execRemoteTableWrite fits station table start values s
  | .remoteTableRead fits station table start count => Sys2Proof.Machine.execRemoteTableRead fits station table start count s
  | .protectOn fits => Sys2Proof.Machine.execProtectOn fits s
  | .protectOff fits => Sys2Proof.Machine.execProtectOff fits s
  | .protectionListWrite fits groups unknown => Sys2Proof.Machine.execProtectionListWrite fits groups unknown s

end Sys2Proof.Machine
end

