-- ==== Sys2Proof/Machine/Tick.lean ====
section
/-! DEFINITION. What the part does of itself when no command waits: one of the events that have come about, or
one µs of the crystal (notes/assumptions/1.md, notes/assumptions/4.md). -/

namespace Sys2Proof.Machine

open Sys2Proof

/-- An event that has come about: no µs remains before it. -/
def dueIf (i : Instr) (remaining : Option Nat) : List Instr := if remaining = some 0 then [i] else []

/-- An event that comes about at a condition. -/
def dueWhen (i : Instr) (b : Bool) : List Instr := if b then [i] else []

/-- The silence limit has come about: in MAPPED and UNMAPPED alone it changes the ring state (R10). -/
def silenceDue (s : State) : Bool :=
  (s.cyc.ring == .mapped || s.cyc.ring == .unmapped) && silenceRemaining s == some 0

/-- The field computation has run its µs (R54). -/
def computationDue (s : State) : Bool :=
  match s.time.computation with
  | none => false
  | some k => decide (computationLimit k ≤ k.elapsed)

/-- What comes about at the cycle boundary: the stall and the age limit of the claim at the emission's
instant before the emission itself (R13, R14, R67, notes/assumptions/42.md). -/
def boundaryEvent (s : State) : Instr :=
  if missLimitDue s then .returnMissLimit else if claimAgeDue s then .claimAgeLimit else .cycleBoundary

/-- The waiting reply finds room (R164). -/
def replyDue (s : State) : Bool :=
  match s.port.waiting with
  | none => false
  | some r => roomFor s r

/-- The first pending outcome finds room (R74). -/
def pendingDue (s : State) : Bool :=
  match firstPending s.slots.outstanding with
  | none => false
  | some (o, _, out) => roomFor s (outcomeOfEntry o out)

/-- The notices find room (R167). -/
def noticeDue (s : State) : Bool := !s.port.notices.isEmpty && roomFor s (.notice s.port.notices)

/-- The command of the oldest frame in the command FIFO, taken when no reply waits (R163, R164, R165). -/
def headCommand (s : State) : List Instr :=
  if s.port.waiting.isNone then
    match s.port.frames with
    | [] => []
    | f :: _ =>
      if f.damaged then [.damagedFrame]
      else if f.bytes.length ≤ 1 then [.emptyFrame]
      else [commandIn f.bytes]
  else []

/-- The frame in the loop of a SOLO station has come round (R19, R29, notes/assumptions/54.md). -/
def loopDue (s : State) : List Instr :=
  match s.link.loop with
  | none => []
  | some l =>
    if isSolo s ∧ l.left = 0 then
      match l.kind with
      | .cycle => [.cycleReturn (loopReturn l)]
      | .collect => [.collectReturn (loopReturn l) 8]
    else []

/-- The FILL of an idle loop raises a receiver that is DOWN: the symbols that its fill run lacks
(R2, R19, notes/assumptions/54.md). -/
def loopFill (s : State) : List Instr :=
  if loopIdle s ∧ s.link.rx = .down then [.fillRunLimit] else []

/-- The events of the timebase that have come about. -/
def timeDue (s : State) : List Instr :=
  dueIf .linkWaitEnd (linkWaitRemaining s.time) ++ dueIf .raceWaitEnd (raceWaitRemaining s.time) ++
    dueIf .raceTimeTop (raceTopRemaining s.time) ++ dueIf .goFire (goRemaining s) ++
    dueIf .goPulseEnd s.time.pulse ++ dueWhen .fieldComputationEnd (computationDue s)

/-- The events of the ring, the race and the bulk unit that have come about. -/
def timerDue (s : State) : List Instr :=
  dueWhen .silenceLimit (silenceDue s) ++
    dueWhen .outstandingWaitLimit (s.slots.outstanding.any waitedOut) ++
    dueIf .closeDeadline (deadlineRemaining s) ++
    (List.range 8).flatMap (fun c => dueIf (.lostCarLimit c) (lostRemaining s c)) ++
    dueIf .referralTimeout (referralRemaining s) ++
    (List.range 4).flatMap (fun e => dueIf (.receiveIdleLimit e) (idleRemaining s e)) ++
    dueIf (boundaryEvent s) (boundaryRemaining s)

/-- The events of the cabinet port that have come about. -/
def portDue (s : State) : List Instr :=
  dueWhen .replyPlaced (replyDue s) ++ dueWhen .reportPendingPlaced (pendingDue s) ++
    dueWhen .noticePlaced (noticeDue s) ++ headCommand s

/-- Every event that has come about. -/
def dueEvents (s : State) : List Instr := loopDue s ++ loopFill s ++ timeDue s ++ timerDue s ++ portDue s

/-- One of the events that have come about, by a free value when there are several
(notes/assumptions/4.md). -/
def pickDue (first : Instr) (rest : List Instr) (s : State) : Instr × State :=
  match rest with
  | [] => (first, s)
  | _ :: _ =>
    let v := freeValue s
    ((first :: rest).getD (v.1 % (rest.length + 1)) first, v.2)

/-- What the part does when no command waits: one of the events that have come about takes effect, and when
there is none a µs passes (notes/assumptions/1.md). -/
def tick (s : State) : Host.Outcome State Fault Refusal :=
  match dueEvents s with
  | [] => .next (elapse 1 s)
  | first :: rest =>
    let c := pickDue first rest s
    exec c.1 c.2

end Sys2Proof.Machine
end

