-- ==== Sys2Proof/Safety.lean ====
section
/-! DEFINITION. What a run keeps: the invariants of the state that the claims speak of, each one a property that
the spec states of the part as a whole or that its tables and limits fix, and what a safe step is. -/

namespace Sys2Proof.Safety

open Sys2Proof Sys2Proof.Machine

/-! ## The pins and the ring state (R3, R8, R13, R18) -/

/-- The transmit source and BYP follow the ring state, the receiver state and the role (R3, R18). -/
abbrev PinsFollow (s : State) : Prop :=
  s.link.tx = txFor s.cyc.ring s.link.rx ∧ s.link.byp = bypFor s.cyc.ring (role s)

/-- The ring states that a role can have: a node those of R8, an ANCHOR those of R13 to R17, a SOLO station
those of an anchor but DEFERRED (R17), and a station without a role UNCONFIGURED alone. -/
def ringSuits : Role → RingState → Bool
  | .none, r => r == .unconfigured
  | .racer, r => r == .standby || nodeTakes r
  | .observer, r => r == .standby || nodeTakes r
  | .anchor, r => emitting r || r == .deferred
  | .solo, r => emitting r

/-- The ring state is one that the station's role can have. -/
abbrev RingSuits (s : State) : Prop := ringSuits (role s) s.cyc.ring = true

/-! ## Tables and lists of fixed length -/

/-- Every table has the number of entries that the spec gives it (R77, R88, R90, R91, R95, R113, R117, R118,
R151, R158, R172). -/
abbrev TablesWhole (s : State) : Prop :=
  s.settings.entries.length = 20 ∧ s.race.setup.length = 9 ∧ s.race.grid.length = 30 ∧
    s.race.cars.length = 8 ∧ s.replica.length = 8 ∧ s.seat.seats.length = 2 ∧ s.seat.own.length = 2 ∧
    s.bulk.send.length = 2 ∧ s.bulk.recv.length = 4 ∧ s.cyc.relayCopy.length = 8 ∧
    s.slots.nextSlots.length = 6

/-- A table's entries lie in their ranges. -/
def inRanges (range : Nat → Nat × Nat) (size : Nat) (table : List Nat) : Prop :=
  ∀ i < size, (range i).1 ≤ table.getD i 0 ∧ table.getD i 0 ≤ (range i).2

/-- Every writable settings entry, every race setup entry and every grid entry lies in its range (R88, R90,
R172). -/
def TablesInRange (s : State) : Prop :=
  inRanges settingRange 12 s.settings.entries ∧ inRanges setupRange 9 s.race.setup ∧
    inRanges gridRange 30 s.race.grid

/-! ## Limits of queues and counts (R14, R56, R58, R59, R65, R153, R178) -/

/-- No queue and no count stands above its limit. -/
abbrev WithinLimits (s : State) : Prop :=
  s.slots.urgent.length ≤ 4 ∧ s.slots.normal.length ≤ 8 ∧ s.slots.outstanding.length ≤ 4 ∧
    s.slots.starvation ≤ 255 ∧ s.slots.claimAge ≤ 64 ∧ s.cyc.missed ≤ 8 ∧ s.dropped ≤ 255 ∧
    s.seat.attentionCode ≤ 127

/-! ## The race (R42, R43, R84, R143, R144) -/

/-- The held causes are non-empty only in RUNNING and CLOSING (R84). -/
abbrev HeldInRace (s : State) : Prop :=
  anyCause s.race.causes = true → s.race.phase = .running ∨ s.race.phase = .closing

/-- Race time stands at 0, and no GO is awaited. -/
abbrev AtZero (s : State) : Prop :=
  s.time.race = 0 ∧ s.time.raceStatus = .zero ∧ s.time.go = .none

/-- Race time is 0 while the station's race phase is IDLE or GATHERING (R42). That its status is ZERO also at an
anchor in DEFERRED, where R43's row says FROZEN (DEFERRED), is the model's inference (notes/assumptions/57.md). -/
abbrev ZeroBeforeRace (s : State) : Prop :=
  (racePhase s = .idle ∨ racePhase s = .gathering) → AtZero s

/-- A station that is UNCONFIGURED has the race and the mirrors of reset (R6, R77, R169). -/
abbrev FreshBefore (s : State) : Prop :=
  s.cyc.ring = .unconfigured → s.race.phase = .idle ∧ s.cyc.mirrors = none ∧ AtZero s

/-- The schedule is FIRED. -/
def goFired : GoSchedule → Bool
  | .fired _ => true
  | .none => false
  | .armed _ => false

/-- The GO schedule that a phase of the anchor's race has (R38, R46, R48, R51, R81, R82). -/
def goSuits : Phase → GoSchedule → Bool
  | .idle, g => g == .none
  | .gathering, g => g == .none
  | .countdown, g =>
    match g with
    | .armed _ => true
    | .none => false
    | .fired _ => false
  | .running, g => goFired g
  | .closing, g => goFired g
  | .results, g => goFired g

/-- At an anchor the GO schedule is that of its phase. -/
abbrev GoFollowsPhase (s : State) : Prop :=
  anchorRole s = true → goSuits s.race.phase s.time.go = true

/-- Race time is 0 with the status ZERO until GO has fired (R42). Two of its cases are the model's inferences:
an anchor in DEFERRED, where R43's row says FROZEN (DEFERRED) (notes/assumptions/57.md), and a node that learns
of a race late by a RESULTS header, whose schedule is left FIRED (notes/assumptions/21.md). -/
abbrev ZeroUntilGo (s : State) : Prop :=
  goFired s.time.go = false → s.time.race = 0 ∧ s.time.raceStatus = .zero

/-- A car is RACING only in RUNNING and CLOSING (R91, R147). -/
abbrev RacingInRace (s : State) : Prop :=
  (∃ k ∈ s.race.cars, k.state = .racing) → s.race.phase = .running ∨ s.race.phase = .closing

/-- Everything that the race, its clock and its holds keep. -/
abbrev RaceKept (s : State) : Prop :=
  RingSuits s ∧ FreshBefore s ∧ HeldInRace s ∧ ZeroBeforeRace s ∧ GoFollowsPhase s ∧ ZeroUntilGo s ∧
    RacingInRace s

/-- Race time has not fallen, or the race is over or not yet begun, or a header at a node has given another G
(R42). -/
abbrev RaceTimeUpheld (s t : State) : Prop :=
  s.time.race.toNat ≤ t.time.race.toNat ∨ racePhase t = .idle ∨ racePhase t = .gathering ∨
    (nodeRole s = true ∧ goTimeOf t.time.go ≠ goTimeOf s.time.go)

/-- A car that was RACING has kept its owner and tag, and neither its lap count nor its last accepted race stamp
has fallen, unless it has become VACANT (R140, R141). -/
abbrev CarUpheld (a b : Car) : Prop :=
  b.state = .vacant ∨
    (a.owner = b.owner ∧ a.tag = b.tag ∧ a.laps ≤ b.laps ∧ a.stamp.toNat ≤ b.stamp.toNat)

/-- One entry of the finish list stands before another: a lower time, or an equal time and a lower car number
(R143). -/
abbrev Before (a b : FinishEntry) : Prop :=
  a.time.toNat < b.time.toNat ∨ (a.time.toNat = b.time.toNat ∧ a.car < b.car)

/-- The finish list holds FINISHED cars, each at most once, in the order of R143. -/
abbrev FinishOrdered (s : State) : Prop :=
  s.race.finish.Pairwise Before ∧ (s.race.finish.map FinishEntry.car).Nodup ∧
    ∀ e ∈ s.race.finish, e.car < 8 ∧ (carAt s e.car).state = .finished

/-- The confirmed entries lead the finish list, and every RACING car's stamp stands above each of their times
(R144). -/
abbrev ConfirmedLead (s : State) : Prop :=
  s.race.finish.Pairwise (fun a b => b.confirmed = true → a.confirmed = true) ∧
    ∀ e ∈ s.race.finish, e.confirmed = true →
      ∀ k ∈ s.race.cars, k.state = .racing → e.time.toNat < k.stamp.toNat

/-- The finish list is empty before the race (R78, R82, R83). -/
abbrev NoFinishBefore (s : State) : Prop :=
  (s.race.phase = .idle ∨ s.race.phase = .gathering ∨ s.race.phase = .countdown) → s.race.finish = []

/-- Everything that the finish order keeps (R143, R144). -/
abbrev FinishKept (s : State) : Prop :=
  s.race.cars.length = 8 ∧ FinishOrdered s ∧ ConfirmedLead s ∧ NoFinishBefore s

/-! ## Send channels (R151, R153, R154) -/

/-- The bytes of the segment outstanding. -/
def outBytes : Option SegmentOut → Nat
  | some (.segment _ n) => n
  | some .abort => 0
  | none => 0

/-- The bytes of an ACTIVE channel are accounted for: those supplied are accepted, outstanding or buffered,
unless an abort has emptied the buffer; the buffer holds at most 256. -/
def channelAccounts (c : SendChannel) : Prop :=
  c.remaining ≤ c.total ∧ c.supplied ≤ c.total ∧ c.buffer.length ≤ 256 ∧
    (c.state = .active → outBytes c.out ≤ c.remaining) ∧
    (c.state = .active → c.abortPending = false →
      c.supplied = (c.total - c.remaining) + outBytes c.out + c.buffer.length)

/-- A segment or abort is ready only when nothing of the channel is outstanding (R154, R156). -/
abbrev readyAlone (c : SendChannel) : Prop := c.ready.isSome = true → c.out = none

/-- Both send channels are accounted for. -/
def ChannelsAccount (s : State) : Prop := ∀ c ∈ s.bulk.send, channelAccounts c ∧ readyAlone c

/-! ## The cabinet port (R165 to R167) -/

/-- The oldest report has bytes left to read, and of an empty FIFO none has been read (R166). -/
def headLeft : List Report → Nat → Prop
  | [], n => n = 0
  | r :: _, n => n < reportSize r

/-- The two FIFOs hold no more than their bytes, and the notice set holds each kind at most once, in the order
of R167. -/
def PortFits (s : State) : Prop :=
  commandBytes s.port ≤ 256 ∧ (s.port.reports.map reportSize).sum ≤ 2048 + s.port.headRead ∧
    headLeft s.port.reports s.port.headRead ∧ s.port.notices.Sublist allNotices

/-- The name of a command of the cabinet port, none for an event or a frame (R163). -/
def portCommand : Instr → Option Cmd
  | .configure .. => some .configure
  | .restart .. => some .restart
  | .standby .. => some .standby
  | .resumeRing .. => some .resumeRing
  | .status .. => some .status
  | .survey .. => some .survey
  | .openGathering .. => some .openGathering
  | .closeGathering .. => some .closeGathering
  | .startRace .. => some .startRace
  | .abortRace .. => some .abortRace
  | .hold .. => some .hold
  | .resume .. => some .resume
  | .clearRace .. => some .clearRace
  | .raceSetupWrite .. => some .raceSetupWrite
  | .raceSetupRead .. => some .raceSetupRead
  | .gridWrite .. => some .gridWrite
  | .gridRead .. => some .gridRead
  | .poll .. => some .poll
  | .clearStations .. => some .clearStations
  | .admitCar .. => some .admitCar
  | .refuse .. => some .refuse
  | .join .. => some .join
  | .leave .. => some .leave
  | .setReady .. => some .setReady
  | .requestAttention .. => some .requestAttention
  | .withdrawAttention .. => some .withdrawAttention
  | .localTrigger .. => some .localTrigger
  | .carReport .. => some .carReport
  | .game .. => some .game
  | .bulkOpen .. => some .bulkOpen
  | .bulkData .. => some .bulkData
  | .bulkAbort .. => some .bulkAbort
  | .tableWrite .. => some .tableWrite
  | .tableRead .. => some .tableRead
  | .remoteTableWrite .. => some .remoteTableWrite
  | .remoteTableRead .. => some .remoteTableRead
  | .protectOn .. => some .protectOn
  | .protectOff .. => some .protectOff
  | .protectionListWrite .. => some .protectionListWrite
  | .powerReset => none
  | .lossOfSignal _ => none
  | .fillRunLimit => none
  | .errorRunLimit _ => none
  | .nodeCycleFrame _ => none
  | .silenceLimit => none
  | .cycleBoundary => none
  | .returnMissLimit => none
  | .cycleReturn _ => none
  | .foreignFrame .. => none
  | .nodeCollectFrame _ => none
  | .collectReturn .. => none
  | .linkWaitEnd => none
  | .raceWaitEnd => none
  | .raceTimeTop => none
  | .goFire => none
  | .goPulseEnd => none
  | .fieldEdge _ => none
  | .fieldComputationEnd => none
  | .outstandingWaitLimit => none
  | .claimAgeLimit => none
  | .closeDeadline => none
  | .lostCarLimit _ => none
  | .referralTimeout => none
  | .receiveIdleLimit _ => none
  | .commandByteWrite _ => none
  | .reportByteRead => none
  | .emptyFrame => none
  | .damagedFrame => none
  | .unknownCommand _ => none
  | .replyPlaced => none
  | .reportPendingPlaced => none
  | .noticePlaced => none
  | .lockChange _ => none

/-- The length of a command's frame suits it (R163); an event or a frame has no such test. -/
def frameFits : Instr → Bool
  | .configure fits .. => fits
  | .restart fits => fits
  | .standby args => args.fits
  | .resumeRing fits => fits
  | .status fits _ => fits
  | .survey fits => fits
  | .openGathering fits => fits
  | .closeGathering fits => fits
  | .startRace fits _ => fits
  | .abortRace fits => fits
  | .hold fits => fits
  | .resume fits => fits
  | .clearRace fits => fits
  | .raceSetupWrite fits .. => fits
  | .raceSetupRead fits .. => fits
  | .gridWrite fits .. => fits
  | .gridRead fits .. => fits
  | .poll fits _ => fits
  | .clearStations fits => fits
  | .admitCar fits _ => fits
  | .refuse fits => fits
  | .join fits .. => fits
  | .leave fits _ => fits
  | .setReady fits _ => fits
  | .requestAttention fits _ => fits
  | .withdrawAttention fits => fits
  | .localTrigger fits => fits
  | .carReport fits .. => fits
  | .game fits .. => fits
  | .bulkOpen fits .. => fits
  | .bulkData fits .. => fits
  | .bulkAbort fits _ => fits
  | .tableWrite fits .. => fits
  | .tableRead fits .. => fits
  | .remoteTableWrite fits .. => fits
  | .remoteTableRead fits .. => fits
  | .protectOn fits => fits
  | .protectOff fits => fits
  | .protectionListWrite fits .. => fits
  | .powerReset => true
  | .lossOfSignal _ => true
  | .fillRunLimit => true
  | .errorRunLimit _ => true
  | .nodeCycleFrame _ => true
  | .silenceLimit => true
  | .cycleBoundary => true
  | .returnMissLimit => true
  | .cycleReturn _ => true
  | .foreignFrame .. => true
  | .nodeCollectFrame _ => true
  | .collectReturn .. => true
  | .linkWaitEnd => true
  | .raceWaitEnd => true
  | .raceTimeTop => true
  | .goFire => true
  | .goPulseEnd => true
  | .fieldEdge _ => true
  | .fieldComputationEnd => true
  | .outstandingWaitLimit => true
  | .claimAgeLimit => true
  | .closeDeadline => true
  | .lostCarLimit _ => true
  | .referralTimeout => true
  | .receiveIdleLimit _ => true
  | .commandByteWrite _ => true
  | .reportByteRead => true
  | .emptyFrame => true
  | .damagedFrame => true
  | .unknownCommand _ => true
  | .replyPlaced => true
  | .reportPendingPlaced => true
  | .noticePlaced => true
  | .lockChange _ => true

/-- The cabinet commands that an UNCONFIGURED station does not refuse with NOT CONFIGURED (R169). -/
def takenUnconfigured : Cmd → Bool
  | .configure => true
  | .status => true
  | .raceSetupRead => true
  | .gridRead => true
  | .tableRead => true
  | _ => false

/-- The commands that the station must act as anchor for (R79, R174). -/
def anchorCommand : Cmd → Bool
  | .survey => true
  | .openGathering => true
  | .closeGathering => true
  | .startRace => true
  | .abortRace => true
  | .hold => true
  | .resume => true
  | .clearRace => true
  | .poll => true
  | .clearStations => true
  | .admitCar => true
  | .refuse => true
  | .remoteTableWrite => true
  | .remoteTableRead => true
  | _ => false

/-- A command of the cabinet port can be taken at a configured station. -/
abbrev CommandReady (s : State) : Prop := canTake s = true ∧ configured s = true

/-- A command of the cabinet port can be taken at a station acting as anchor. -/
abbrev AnchorReady (s : State) : Prop := canTake s = true ∧ actingAnchor s = true

/-- A command refused: its frame leaves the command FIFO, the reply REFUSED carries the reason, and nothing else
changes (R163). -/
def Refused (c : Cmd) (i : Instr) (r : RefusalReason) (s : State) : Prop :=
  exec i s = .next (giveReply (.command c) (.refused r) (dropFrame s))

/-- A node takes a frame in which no run of code errors ends it. -/
abbrev NodeTakes (f : RxFrame) (s : State) : Prop := nodeReceives s = true ∧ errorCut 0 f.symbols = none

/-- An anchor that emits takes a frame in which no run of code errors ends it. -/
abbrev AnchorTakes (f : RxFrame) (s : State) : Prop :=
  anchorTakes s = true ∧ errorCut 0 f.symbols = none

/-- A frame comes back to an anchor that emits, its receiver UP, and no run of code errors ends it: `u` is the
state in which it is taken. At an ANCHOR it comes from the pins; at a SOLO station it is the frame that the
loop holds, and the µs left to it have passed (R2, R14, R19). -/
abbrev Returned (k : FrameKind) (f : RxFrame) (s u : State) : Prop :=
  AnchorTakes f s ∧
    ((isSolo s = false ∧ u = { s with link := { s.link with errorRun := 0 } }) ∨
     (isSolo s = true ∧ ∃ l, s.link.loop = some l ∧ l.kind = k ∧ f = loopReturn l ∧
       u = { elapse l.left s with link := { s.link with errorRun := 0, loop := none } }))

/-- A valid header by which a node stays or becomes MAPPED: its map lists the station, and its epoch is the
surveyed one on a fresh mapping or the mapped one (R9). -/
abbrev HeaderMaps (h : Header) (s : State) : Prop :=
  lists h.map (address s) = true ∧
    ((h.epoch = s.survey.surveyedEpoch ∧ h.epoch ≠ s.cyc.mappedEpoch) ∨
     (h.epoch = s.cyc.mappedEpoch ∧ h.epoch ≠ 0))

/-- The cycle frame awaited has not come back: it is awaited no more, the slots of the next cycle frame are six
EMPTY ones, and the held-slot list is empty; with a slot held, the referral record becomes FREE with the report
SLOT LOST (R15, R64, R72, R102). -/
def withoutAwaited (s : State) : State :=
  let u : State :=
    { s with cyc := { s.cyc with awaited := none },
             slots := { s.slots with nextSlots := List.replicate 6 none, held := [] } }
  let freed (j : JoinRequest) (a : Option JoinAnswer) : State :=
    queueEvent (.referral .slotLost j.station j.seat j.tag 0 a) { u with race := { s.race with referral := .free } }
  if s.slots.held = [] then u
  else
    match s.race.referral with
    | .free => u
    | .pending j _ _ => freed j none
    | .decided j _ a _ => freed j (some a)

/-- The PLACING report of the anchor on an event that has made `after` of the race `before`: every car whose
placing or confirmed flag has changed or that has left RACING, with its new placing and flag; the finish list
with each entry's car, placing, confirmed flag and time; and the number of cars still RACING (R149). -/
def placingReport (cause : PlacingCause) (before after : RaceControl) : Report :=
  let placed (r : RaceControl) (c : Nat) : PlacedCar :=
    { car := c, placing := placingOf r.finish c, confirmed := confirmedOf r.finish c }
  let racing (r : RaceControl) (c : Nat) : Bool := (r.cars.getD c Car.vacant).state == .racing
  .placing cause
    (((List.range 8).filter fun c =>
        placed before c != placed after c || (racing before c && !racing after c)).map (placed after))
    (after.finish.map fun e => (placed after e.car, e.time))
    (after.cars.filter fun k => k.state == .racing).length

/-- The PHASE report of a race that ends because no car is RACING, at a race time (R78, R147). -/
def raceEndReport (race : Micros) : Report :=
  .phase .results false { fault := false, command := false } race .noRacingCar

/-- The reports of a car that has left RACING by a retirement which made `after` of the state given: PLACING
with the cause RETIREMENT, and behind it, when it ended the race, the PHASE report of that end (R147, R149). -/
def retirementReports (after s : State) : State :=
  let told := queueEvent (placingReport .retirement s.race after.race) s
  if s.race.phase ≠ .results ∧ after.race.phase = .results then
    queueEvent (raceEndReport after.time.race) told
  else told

/-- A summary shows car `c` owned by this station and a seat, in any state but VACANT (R104). -/
abbrev ShowsSeat (l : List CarSummary) (c seat : Nat) (s : State) : Prop :=
  (summaryAt l c).state ≠ .vacant ∧ (summaryAt l c).station = address s ∧ (summaryAt l c).seat = seat

/-- An outstanding entry `o` of `s` has left the table with the outcome `out`, and the block that waits for it
has acted: `t` is the state after. A GAME, table message or CLEAR STATIONS gives an OUTCOME report, or keeps it
in the entry as REPORT PENDING; a POLL gives its answer report; a JOIN seats its REQUESTED seat in the car named
or makes it UNSEATED, and a LEAVE changes no seat; a bulk segment moves its channel by R155's table (R59, R74,
R103, R105, R111, R155, R156). -/
def Settled (o : Outstanding) (out : MsgOutcome) (s t : State) : Prop :=
  let u : State := { s with slots := { s.slots with outstanding := s.slots.outstanding.erase o } }
  let report : Report := .outcome o.kind o.tag o.dest out
  let named : Option Nat :=
    match out with
    | .accepted (b :: _) => if b.toNat < 8 then some b.toNat else none
    | .accepted [] => none
    | .declined _ => none
    | .lost => none
  let seatsAfter : List SeatRecord :=
    s.seat.seats.set o.seat
      (match seatAt s o.seat, named with
       | .requested w, some c => .seated c w
       | .requested _, none => .unseated
       | r, _ => r)
  let seats (cause : SeatsCause) (l : List SeatRecord) : Report :=
    .seats cause (some o.seat) (some out) named l s.seat.ready s.seat.attentionPending s.seat.attentionCode
  (o.kind = .game ∨ o.kind = .tableWrite ∨ o.kind = .tableRead ∨ o.kind = .clearStations →
    (reportSize report ≤ reportFree s →
      t = { u with port := { s.port with reports := s.port.reports ++ [report] } }) ∧
    (reportFree s < reportSize report →
      t = { s with slots := { s.slots with
        outstanding := s.slots.outstanding.erase o ++
          [{ o with progress := .reportPending out s.slots.outcomeOrder }],
        outcomeOrder := s.slots.outcomeOrder + 1 } })) ∧
  (o.kind = .poll → t = queueEvent (.pollAnswer o.dest o.tag out) u) ∧
  (o.kind = .join →
    t = queueEvent (seats .joinOutcome seatsAfter) { u with seat := { s.seat with seats := seatsAfter } }) ∧
  (o.kind = .leave → t = queueEvent (seats .leaveOutcome s.seat.seats) u) ∧
  (o.kind = .bulkSegment ∨ o.kind = .bulkAbort →
    (o.channel = none → t = u) ∧
    ∀ ch, o.channel = some ch → (ch = 1 ∨ ch = 2) → s.bulk.send.length = 2 →
      let c := chanAt s ch
      let after (x : SendChannel) : State :=
        { u with bulk := { s.bulk with send := s.bulk.send.set (ch - 1) x } }
      let failed (why : SendFailure) : State :=
        queueEvent (.bulkFailedSend ch c.peer why (c.total - c.remaining) c.remaining)
          (after { c with state := .failed why, abortPending := false, buffer := [], out := none, ready := none })
      (c.state ≠ .active ∨ c.out = none → t = u) ∧
      (c.state = .active → c.out = some .abort → t = failed .aborted) ∧
      (c.state = .active → ∀ n count, c.out = some (.segment n count) →
        (∀ why, out = .declined why → t = failed (.declined why)) ∧
        (out = .lost → t = failed .lost) ∧
        ∀ p, out = .accepted p →
          let left := c.remaining - count
          let told (v : State) : State :=
            if c.optEach = true then
              queueEvent (.bulkProgress ch c.peer (numAt p 0 2) (numAt p 2 2) left) v
            else v
          let full := c.ready = none ∧ (c.abortPending = true ∨ min 20 left ≤ c.buffer.length)
          (left = 0 →
            t = queueEvent (.bulkDone ch c.peer c.total)
              (told (after { c with state := .done, remaining := 0, abortPending := false, buffer := [],
                                    out := none, ready := none }))) ∧
          (left ≠ 0 →
            t = told
              { after { c with remaining := left, out := none,
                               ready := if full then some s.slots.arrival else c.ready } with
                slots := { u.slots with
                  arrival := if full then s.slots.arrival + 1 else s.slots.arrival } })))

/-- A copy of CLEAR STATIONS has been taken: the Ready flag is 0, no attention request is pending, the replica
store is cleared, a field computation in progress writes no entry, and the SEATS report has the cause CLEAR
(R112, R124). -/
def CopiesClear (s t : State) : Prop :=
  s.replica.length = 8 →
    ∃ v, t = queueEvent (.seats .clear none none none s.seat.seats false false s.seat.attentionCode) v ∧
      v = { s with
        seat := { s.seat with ready := false, attentionPending := false },
        replica := List.replicate 8 { fresh := .none, owner := none, data := none, release := false, pres := none },
        time := { s.time with computation := v.time.computation } } ∧
      (s.time.computation = none → v.time.computation = none) ∧
      ∀ k, s.time.computation = some k →
        ∃ l, v.time.computation = some { k with live := l } ∧ ∀ c < 8, l.getD c false = false

/-! ## Parts that their layouts can carry (chapter 12) -/

/-- A header whose every field lies in its layout. -/
abbrev headerFits (h : Header) : Prop :=
  h.cycle < 65536 ∧ h.epoch < 256 ∧ h.lapTotal < 256 ∧ h.periodCode < 4 ∧ h.claim ≤ 11 ∧
    h.map.addr.length = 12 ∧ (∀ a ∈ h.map.addr, a < 16) ∧ h.map.off.length = 12 ∧ offsetAt h.map 0 = 0 ∧
    (∀ o ∈ h.map.off, o ≤ 200) ∧ h.summary.length = 8 ∧
    ∀ k ∈ h.summary, k.station < 16 ∧ k.seat < 2 ∧ k.placing ≤ 8

/-- A car block whose every field lies in its layout. -/
abbrev blockFits (b : CarBlock) : Prop :=
  b.car < 256 ∧ b.station < 16 ∧ b.seat < 2 ∧ b.data.laps < 256 ∧
    (∀ v ∈ [b.data.x, b.data.y, b.data.z], -8388608 ≤ v ∧ v ≤ 8388607) ∧
    (∀ v ∈ [b.data.vx, b.data.vy, b.data.vz], -2147483648 ≤ v ∧ v ≤ 2147483647) ∧
    -32768 ≤ b.data.yaw ∧ b.data.yaw ≤ 32767

/-- A slot in use whose every field lies in its layout. -/
abbrev slotFits (m : SlotMsg) : Prop :=
  m.relay < 16 ∧ m.source < 15 ∧ m.dest < 16 ∧ m.tag < 256 ∧ m.outcome ≤ 14 ∧ m.len ≤ 24 ∧
    m.payload.length = 24

/-- A collect header whose every field lies in its layout. -/
abbrev collectHeaderFits (h : CollectHeader) : Prop :=
  h.epoch < 256 ∧ 1 ≤ h.attempt ∧ h.attempt ≤ 3 ∧ 1 ≤ h.pass ∧ h.pass ≤ 2 ∧ h.count ≤ 12

/-- A collect entry whose every field lies in its layout. -/
abbrev entryFits (e : CollectEntry) : Prop :=
  e.address < 15 ∧ 1 ≤ e.role ∧ e.role ≤ 4 ∧ e.seatCount ≤ 2

/-! ## A safe step -/

/-- A step is safe when it answers a next state: the part has no fault, and no command is refused by the
model. -/
def SafeStep (s : State) : Prop := ∃ t, step s = .next t

end Sys2Proof.Safety
end

