-- ==== Sys2Proof/Certificates/Slice0/Obligations.lean ====
section
/-! DEFINITION. The statements for the provers: what a step does, what each family of commands does and leaves
unchanged, what the formats and the arithmetic give, and what every step keeps. An equation
`exec c s = .next t` says the whole effect: whatever `t` does not name is as `s` has it. An instant that the counts of
the part fix comes after the µs that remain to it (log entry 2): `elapse d` is the state after they have passed. -/

open Sys2Proof Sys2Proof.Machine Sys2Proof.Safety

/-! ## The step, reset and the cabinet port as a whole -/

/-- A step at a state whose queue begins with a command is that command executed on the state with the queue's
rest (00_scope.md, 95_what_each_step_holds.md). -/
def Obligations.StepRunsFrontCommand : Prop :=
  ∀ (c : Instr) (s : State), step (s.withPending (c :: s.pending)) = exec c s

/-- Every one of the 73 commands, at every state and with every operand, answers a next state, and that state's
queue of waiting commands is the one before: no command ends in a fault or a refusal of the model. That an event
offered where it cannot come about changes nothing is the model's choice (log entry 5) (00_scope.md,
95_what_each_step_holds.md, R163). -/
def Obligations.EveryCommandCompletes : Prop :=
  ∀ (c : Instr) (s : State), ∃ t, exec c s = .next t ∧ t.pending = s.pending

/-- State.reset holds, block by block, the reset values that the spec's tables give; and POWER_RESET at any
state gives exactly those values. The factory serial is the part's own and the LOCK# level the key switch's, so
both stay (log entries 13 and 14); the queue and the counter of free values are the model's own and stay (R2,
R18, R23, R38, R56, R77, R95, R118, R151, R165, R172, R175). -/
def Obligations.ResetHasTheSpecsValues : Prop :=
  ((State.reset.link.rx = .down ∧ State.reset.link.fillRun = 0 ∧ State.reset.link.errorRun = 0 ∧
     State.reset.link.tx = .fill ∧ State.reset.link.byp = true) ∧
   (State.reset.cyc.ring = .unconfigured ∧ State.reset.cyc.mirrors = none ∧
     State.reset.cyc.mappedEpoch = 0 ∧ State.reset.cyc.silence = none ∧ State.reset.cyc.missed = 0 ∧
     State.reset.cyc.cycleNumber = 0 ∧ State.reset.cyc.relayCopy = clearedBlocks) ∧
   State.reset.survey =
     { map := { addr := List.replicate 12 15, off := List.replicate 12 0 }, epoch := 0, counter := 0,
       entries := [], run := none, latch := false, surveyedEpoch := 0 } ∧
   State.reset.time =
     { link := 0, linkStatus := .counting, linkWait := 0, race := 0, raceStatus := .zero, raceWait := 0,
       go := .none, pulse := none, latch := none, computation := none } ∧
   (State.reset.slots.urgent = [] ∧ State.reset.slots.normal = [] ∧ State.reset.slots.arrival = 0 ∧
     State.reset.slots.tagCounter = 0 ∧ State.reset.slots.outstanding = [] ∧
     State.reset.slots.starvation = 0 ∧ State.reset.slots.claimClear = false ∧
     State.reset.slots.urgentUsed = 0 ∧ State.reset.slots.normalUsed = 0 ∧ State.reset.slots.claim = 0 ∧
     State.reset.slots.claimAge = 0 ∧ State.reset.slots.held = []) ∧
   (State.reset.race.phase = .idle ∧ State.reset.race.causes = { fault := false, command := false } ∧
     State.reset.race.countdownMark = false ∧
     (∀ c < 8, (carAt State.reset c).state = .vacant ∧ (carAt State.reset c).owner = none) ∧
     State.reset.race.setup = [3, 30, 0, 10, 20, 3, 1, 1, 1] ∧
     State.reset.race.grid = List.replicate 30 8 ∧ State.reset.race.finish = [] ∧
     State.reset.race.deadline = none ∧ State.reset.race.referral = .free ∧
     State.reset.race.roll = 0 ∧ State.reset.race.attention = 0) ∧
   State.reset.seat =
     { seats := [.unseated, .unseated], ready := false, attentionPending := false, attentionCode := 0,
       own := [none, none] } ∧
   (∀ c < 8, entryAt State.reset c =
     { fresh := .none, owner := none, data := none, release := false, pres := none }) ∧
   (State.reset.fieldNumber = 0 ∧ State.reset.dropped = 0) ∧
   ((∀ ch, (chanAt State.reset ch).state = .idle ∧ (chanAt State.reset ch).buffer = [] ∧
       (chanAt State.reset ch).out = none) ∧ ∀ i, recvAt State.reset i = none) ∧
   (State.reset.port.frames = [] ∧ State.reset.port.writing = none ∧ State.reset.port.reports = [] ∧
     State.reset.port.waiting = none ∧ State.reset.port.notices = [] ∧ cfull State.reset = false ∧
     attn State.reset = false ∧ goPin State.reset = false) ∧
   (State.reset.settings.entries.take 17 =
       [16, 1, 2, 1, 1, 8, 0, 100, 4, 4000, 4096, 2000, 0, 0, 0, 0, 0] ∧
     State.reset.settings.flag = false ∧
     State.reset.settings.list = { roll := true, posting := true, presentation := true })) ∧
  (∀ s : State,
     exec .powerReset s =
       .next
         { State.reset with
           settings := { State.reset.settings with entries := settingsDefaults (ownSerial s),
                                                   lock := s.settings.lock },
           freeCount := s.freeCount, pending := s.pending })

/-- A reply is placed at the tail of the report FIFO when it has room for the whole frame and waits otherwise,
and while one waits no command of the cabinet port is taken (log entry 10). An event report is placed when there
is room and the notice set is empty, and is otherwise recorded as its notice, the set holding each kind at most
once (R164, R166, R167). -/
def Obligations.ReportsFindTheirPlace : Prop :=
  ((∀ re body s,
     (reportSize (.reply re body) ≤ reportFree s →
       giveReply re body s =
         { s with port := { s.port with reports := s.port.reports ++ [.reply re body] } }) ∧
     (reportFree s < reportSize (.reply re body) →
       giveReply re body s = { s with port := { s.port with waiting := some (.reply re body) } })) ∧
   ∀ c k s, portCommand c = some k → s.port.waiting ≠ none → exec c s = .next s) ∧
  (∀ r k s, noticeOf r = some k →
     (s.port.notices = [] ∧ reportSize r ≤ reportFree s →
       queueEvent r s = { s with port := { s.port with reports := s.port.reports ++ [r] } }) ∧
     (s.port.notices ≠ [] ∨ reportFree s < reportSize r →
       ∃ n, queueEvent r s = { s with port := { s.port with notices := n } } ∧ n.Nodup ∧
         ∀ j, j ∈ n ↔ j = k ∨ j ∈ s.port.notices))

/-- A station that is UNCONFIGURED refuses with NOT CONFIGURED every command of the cabinet port but Configure,
Status and the table reads; at a configured station a frame whose length does not suit its command is refused
with MALFORMED; and a configured station that does not act as anchor refuses the anchor's commands with ROLE, as
it does the writes of the race setup and the grid. Each refusal takes the frame and has no other effect. Where
the length test stands among the tests is the model's inference (log entry 11) (R79, R89, R90, R163, R169,
R174). -/
def Obligations.PortCommandsAreTestedInOrder : Prop :=
  (∀ c k s, portCommand c = some k → takenUnconfigured k = false → canTake s = true →
     configured s = false → Refused k c .notConfigured s) ∧
  (∀ c k s, portCommand c = some k → frameFits c = false → CommandReady s → Refused k c .malformed s) ∧
  (∀ c k s, portCommand c = some k → anchorCommand k = true → frameFits c = true → CommandReady s →
     actingAnchor s = false → Refused k c .role s) ∧
  (∀ s start (values : List Nat), CommandReady s → actingAnchor s = false → 1 ≤ values.length →
     (values.length ≤ 9 → Refused .raceSetupWrite (.raceSetupWrite true start values) .role s) ∧
     (values.length ≤ 30 → Refused .gridWrite (.gridWrite true start values) .role s))

/-- Outside the phases of R79's table the race commands, the race setup write and the grid write are refused
with PHASE; Standby and Resume Ring are refused with ROLE at a station that is no node; Configure is refused
with CONFIGURED at a configured station, and with RANGE for an address above 14, an unknown role, or a seat
count outside the role's range (R20, R21, R25, R46, R79, R80, R82, R83, R85, R89, R90, R112, R169). -/
def Obligations.CommandsOutOfPlaceAreRefused : Prop :=
  (∀ s : State, AnchorReady s →
     (s.race.phase ≠ .idle → Refused .openGathering (.openGathering true) .phase s ∧
       Refused .clearStations (.clearStations true) .phase s) ∧
     (s.race.phase ≠ .gathering → Refused .closeGathering (.closeGathering true) .phase s ∧
       ∀ lead, Refused .startRace (.startRace true lead) .phase s) ∧
     ((∀ k ∈ s.race.cars, k.state ≠ .entered) →
       ∀ lead, Refused .startRace (.startRace true lead) .phase s) ∧
     (s.race.phase ≠ .countdown → s.race.phase ≠ .running → s.race.phase ≠ .closing →
       Refused .abortRace (.abortRace true) .phase s) ∧
     (s.race.phase ≠ .running → s.race.phase ≠ .closing →
       Refused .hold (.hold true) .phase s ∧ Refused .resume (.resume true) .phase s) ∧
     (s.race.causes.command = false → Refused .resume (.resume true) .phase s) ∧
     (s.race.phase ≠ .results → Refused .clearRace (.clearRace true) .phase s) ∧
     (s.race.phase = .countdown → Refused .survey (.survey true) .phase s) ∧
     ((s.race.phase = .running ∨ s.race.phase = .closing) → anyCause s.race.causes = false →
       Refused .survey (.survey true) .phase s) ∧
     ∀ start (values : List Nat), 1 ≤ values.length →
       (s.race.phase ≠ .idle → values.length ≤ 9 →
         Refused .raceSetupWrite (.raceSetupWrite true start values) .phase s) ∧
       (s.race.phase ≠ .idle → s.race.phase ≠ .gathering → values.length ≤ 30 →
         Refused .gridWrite (.gridWrite true start values) .phase s)) ∧
  (∀ s, CommandReady s → nodeRole s = false →
     (∀ cut, Refused .standby (.standby { fits := true, cut := cut }) .role s) ∧
       Refused .resumeRing (.resumeRing true) .role s) ∧
  (∀ s a r n (title revision : Half), canTake s = true →
     (configured s = true → Refused .configure (.configure true a r n title revision) .configured s) ∧
     (configured s = false →
       14 < a ∨ r = 0 ∨ 4 < r ∨ 2 < n ∨ (r = 3 ∧ n ≠ 0) ∨ ((r = 2 ∨ r = 4) ∧ n = 0) →
       Refused .configure (.configure true a r n title revision) .range s))

/-! ## The link port and the silence limit -/

/-- The receiver counts symbol by symbol. In UP it goes DOWN at a loss of signal and at the eighth code error of
a run, and any other symbol sets the run to 0; in DOWN it goes UP at the sixty-fourth FILL of a run, and any
other symbol sets the run to 0; each change has its RING report. In DOWN no frame is taken. A SOLO station
ignores its pins, and the FILL of its loop raises its receiver. The transmit source is the one R3's table gives
for the ring state and receiver. A receiver that goes DOWN in a frame ends DOWN with both runs 0, whatever the
frame did. That the symbols of a gap reach the model as an operand of ERROR_RUN_LIMIT is its choice (log
entry 65), and so is a SOLO loop that carries FILL between its frames (log entry 54) (R2, R3, R4, R12, R19). -/
def Obligations.LinkPortFollowsTheLine : Prop :=
  (∀ s : State,
     let down := queueEvent (.ring .linkDown s.cyc.ring (mirrorEpoch s))
       { s with link := { s.link with rx := .down, fillRun := 0, errorRun := 0,
                                      tx := txFor s.cyc.ring .down } }
     let up := queueEvent (.ring .linkUp s.cyc.ring (mirrorEpoch s))
       { s with link := { s.link with rx := .up, fillRun := 64, errorRun := 0,
                                      tx := txFor s.cyc.ring .up } }
     exec .fillRunLimit s =
       exec (.errorRunLimit (.between (List.replicate (64 - s.link.fillRun) .fill))) s ∧
     (isSolo s = false →
       (s.link.rx = .up →
         exec (.lossOfSignal none) s = .next down ∧
           (∀ n, 1 ≤ n → s.link.errorRun + n = 8 →
             exec (.errorRunLimit (.between (List.replicate n .codeError))) s = .next down) ∧
           (s.link.errorRun < 7 →
             exec (.errorRunLimit (.between [.codeError])) s =
               .next { s with link := { s.link with errorRun := s.link.errorRun + 1 } }) ∧
           ∀ x, x ≠ .codeError →
             exec (.errorRunLimit (.between [x])) s =
               .next { s with link := { s.link with errorRun := 0 } }) ∧
       (s.link.rx = .down →
         exec (.lossOfSignal none) s = .next { s with link := { s.link with fillRun := 0, errorRun := 0 } } ∧
           (s.link.fillRun < 64 → exec .fillRunLimit s = .next up) ∧
           (∀ n, 1 ≤ n → s.link.fillRun + n = 64 →
             exec (.errorRunLimit (.between (List.replicate n .fill))) s = .next up) ∧
           (s.link.fillRun < 63 →
             exec (.errorRunLimit (.between [.fill])) s =
               .next { s with link := { s.link with fillRun := s.link.fillRun + 1 } }) ∧
           (∀ x, x ≠ .fill →
             exec (.errorRunLimit (.between [x])) s = .next { s with link := { s.link with fillRun := 0 } })) ∧
       exec (.errorRunLimit (.between [])) s = .next s ∧
       ∀ x gap t, exec (.errorRunLimit (.between [x])) s = .next t →
         exec (.errorRunLimit (.between (x :: gap))) s = exec (.errorRunLimit (.between gap)) t) ∧
     (isSolo s = true →
       (∀ cut, exec (.lossOfSignal cut) s = .next s) ∧
         (∀ c, exec (.errorRunLimit (.inside c)) s = .next s) ∧
         (∀ gap, s.link.loop ≠ none ∨ (∃ x ∈ gap, x ≠ GapSymbol.fill) →
           exec (.errorRunLimit (.between gap)) s = .next s) ∧
         (s.link.loop = none → s.link.rx = .down → s.link.fillRun < 64 →
           exec .fillRunLimit s = .next up))) ∧
  (∀ (r : RingState) (rx : RxState),
     (txFor r rx = .emit ↔ emitting r = true) ∧
     (txFor r rx = .forward ↔ rx = .up ∧ (nodeTakes r = true ∨ r = .deferred)) ∧
     (txFor r rx = .fill ↔
       r = .unconfigured ∨ r = .standby ∨ (rx = .down ∧ (nodeTakes r = true ∨ r = .deferred)))) ∧
  (∀ (c : CutFrame) (s : State), isSolo s = false → s.link.rx = .up →
     ∃ t, exec (.lossOfSignal (some c)) s = .next t ∧ exec (.errorRunLimit (.inside c)) s = .next t ∧
       t.link.rx = .down ∧ t.link.fillRun = 0 ∧ t.link.errorRun = 0 ∧
       t.link.tx = txFor t.cyc.ring .down ∧ t.settings.entries.drop 12 = s.settings.entries.drop 12 ∧
       t.race.cars = s.race.cars ∧ t.race.phase = s.race.phase) ∧
  (∀ (f : RxFrame) (s : State), anchorRole s = false →
     (s.link.rx = .down →
       exec (.nodeCycleFrame f) s = .next { s with link := { s.link with fillRun := 0 } } ∧
         exec (.nodeCollectFrame f) s = .next { s with link := { s.link with fillRun := 0 } }) ∧
     (s.link.rx = .up → (errorCut 0 f.symbols).isSome = true →
       ∀ c, c = Instr.nodeCycleFrame f ∨ c = Instr.nodeCollectFrame f →
         ∃ t, exec c s = .next t ∧ t.link.rx = .down ∧ t.link.fillRun = 0 ∧ t.link.errorRun = 0 ∧
           t.link.tx = txFor t.cyc.ring .down) ∧
     (s.link.rx = .up → errorCut 0 f.symbols = none → nodeTakes s.cyc.ring = false →
       exec (.nodeCycleFrame f) s = .next { s with link := { s.link with errorRun := 0 } } ∧
         exec (.nodeCollectFrame f) s = .next { s with link := { s.link with errorRun := 0 } }))

/-- At the silence limit a MAPPED node becomes LOST: its posts end LOST, its queues are emptied, its receive
entries close and its race time freezes, while its tables, mirrors, Ready flag and attention stay. A REQUESTED
seat whose JOIN was queued or waited becomes UNSEATED, and every other seat stays with its car. The RING report
LOST carries the number of queued messages discarded; behind it stand the BULK FAILED reports of the receive
entries, and before it the reports of the outcomes LOST, an order that is the model's choice (log entry 32).
That this number counts the queued JOIN and LEAVE messages as well, and that a race time FROZEN with HELD or
RESULTS keeps its cause, are the model's inferences (log entries 22 and 19); that a race time which freezes
while WAITING keeps nothing of its wait is its choice (log entry 88). An UNMAPPED node returns to LISTENING with
its silence count at zero and its RING report, and its queues, posts, seats and tables stay (R3, R10, R12, R44,
R75, R103, R161). -/
def Obligations.SilenceMovesTheNode : Prop :=
  (∀ (s : State) c, s.cyc.ring = .mapped → s.cyc.silence = some c → s.bulk.recv.length = 4 →
     let e := elapse (4 * mirrorPeriod s - c) s
     let left : State :=
       { e with cyc := { e.cyc with ring := .lost },
                link := { e.link with tx := txFor .lost s.link.rx, byp := bypFor .lost (role s) } }
     let closed :=
       closeAllRing (queueEvent
         (.ring (.lost (s.slots.urgent.length + s.slots.normal.length)) .lost (mirrorEpoch s)) (ringLoss left))
     let joins (k : Nat) : Prop :=
       (∃ o ∈ s.slots.outstanding, o.progress = .waiting ∧ o.kind = .join ∧ o.seat = k) ∨
         ∃ m, (m ∈ s.slots.urgent ∨ m ∈ s.slots.normal) ∧ m.kind = .join ∧ m.seat = k
     ∃ t, exec .silenceLimit s = .next t ∧ t = { closed with time := freezeByRing .lost closed.time } ∧
       (∀ k w, seatAt s k = .requested w → joins k → seatAt t k = .unseated) ∧
       (∀ k, (∀ w, seatAt s k ≠ .requested w) ∨ ¬ joins k → seatAt t k = seatAt s k) ∧
       t.seat = { s.seat with seats := t.seat.seats } ∧
       t.cyc.ring = .lost ∧ t.link.tx = txFor .lost s.link.rx ∧
       t.slots.urgent = [] ∧ t.slots.normal = [] ∧ t.slots.starvation = 0 ∧ t.slots.claimClear = false ∧
       (∀ o ∈ t.slots.outstanding, o.progress ≠ .waiting) ∧ (∀ e ∈ t.bulk.recv, e = none) ∧
       t.time.raceStatus ≠ .counting ∧ t.time.raceStatus ≠ .waiting ∧
       (s.time.raceStatus = .counting ∨ s.time.raceStatus = .waiting → t.time.raceStatus = .frozen .lost) ∧
       t.cyc.mirrors = s.cyc.mirrors ∧ t.cyc.mappedEpoch = s.cyc.mappedEpoch ∧ t.survey = s.survey ∧
       t.settings = s.settings ∧ t.replica = s.replica ∧ t.race.cars = s.race.cars ∧
       t.port.frames = s.port.frames) ∧
  (∀ s : State, s.cyc.ring = .unmapped → s.cyc.silence ≠ none →
     ∃ t, exec .silenceLimit s = .next t ∧ t.cyc.ring = .listening ∧ t.cyc.silence = some 0 ∧
       t.link.tx = txFor .listening s.link.rx ∧
       t.port = (queueEvent (.ring .listening .listening (mirrorEpoch s)) s).port ∧
       t.slots = { s.slots with starvation := 0, claimClear := false } ∧
       t.cyc.mirrors = s.cyc.mirrors ∧ t.cyc.mappedEpoch = s.cyc.mappedEpoch ∧ t.survey = s.survey ∧
       t.settings = s.settings ∧ t.replica = s.replica ∧ t.seat = s.seat ∧ t.race.cars = s.race.cars ∧
       t.bulk.send = s.bulk.send ∧ t.port.frames = s.port.frames) ∧
  (∀ x : State,
     let ended :=
       (x.slots.outstanding.filter fun o => o.progress == .waiting).foldl (fun v o => endEntry o .lost v) x
     let seats (cause : SeatsCause) (k : Nat) (l : List SeatRecord) (v : State) : Report :=
       .seats cause (some k) (some .lost) none l v.seat.ready v.seat.attentionPending v.seat.attentionCode
     let discarded (v : State) (m : QueuedMsg) : State :=
       if m.kind = .join then
         let l := v.seat.seats.set m.seat
           (match seatAt v m.seat with
            | .requested _ => .unseated
            | r => r)
         queueEvent (seats .joinOutcome m.seat l v) { v with seat := { v.seat with seats := l } }
       else if m.kind = .leave then queueEvent (seats .leaveOutcome m.seat v.seat.seats v) v
       else v
     (∀ o v, Settled o .lost v (endEntry o .lost v)) ∧
       ringLoss x =
         (x.slots.urgent ++ x.slots.normal).foldl discarded
           { ended with slots := { ended.slots with
             urgent := [], normal := [], starvation := 0, claimClear := false, urgentUsed := 0,
             normalUsed := 0 } }) ∧
  (∀ (x : State) i,
     closeAllRing x = (List.range 4).foldl (fun v i => closeRecv i .ring v) x ∧
       (recvAt x i = none → closeRecv i .ring x = x) ∧
       ∀ e, recvAt x i = some e →
         closeRecv i .ring x =
           queueEvent (.bulkFailedReceive e.source e.channel .ring e.received e.total)
             { x with bulk := { x.bulk with recv := x.bulk.recv.set i none } })

/-! ## Frames at a node -/

/-- A cycle frame whose header fails its check is forwarded as received and nothing else changes. A valid header
moves a node's ring state by the rows of R9, fills its mirrors and restarts its silence count; the survey unit,
the race controller, the command FIFO and the field counts stay as they are. It queues, before the blocks and
slots pass, the RING report of a fresh mapping or of a change, the GO report of a schedule that it fires, the
PHASE report of a phase or held flag that differs from the mirrors, the PLACING report of the cars that differ,
and the SEATS reports of the seat mirror. Their order is the model's choice (log entry 32), and so are the event
HEADER of that PHASE report (log entry 90) and that the PHASE and PLACING reports are those of a node that is
MAPPED after the header's own test (log entry 91); its inferences are the finish times and racing count of that
PLACING report (log entry 53) and that a COUNTDOWN header whose G lies behind arms and fires on the same header
(log entry 20) (R6, R7, R8, R9, R10, R12, R50, R94, R150). -/
def Obligations.HeaderMovesTheRingState : Prop :=
  (∀ f s, NodeTakes f s → parseHeader (headerPart f.symbols) = none →
     exec (.nodeCycleFrame f) s =
       .next { s with link := { s.link with
         errorRun := 0, out := [{ kind := .cycle, symbols := f.symbols.take 608, looped := false }] } }) ∧
  (∀ f s h, NodeTakes f s → parseHeader (headerPart f.symbols) = some h →
     ∃ t, exec (.nodeCycleFrame f) s = .next t ∧
       t.cyc = { s.cyc with ring := t.cyc.ring, mappedEpoch := t.cyc.mappedEpoch, mirrors := some h,
                            silence := some 0 } ∧
       (if h.epoch = s.survey.surveyedEpoch ∧ h.epoch ≠ s.cyc.mappedEpoch ∧ lists h.map (address s) = true then
         t.cyc.ring = .mapped ∧ t.cyc.mappedEpoch = h.epoch
       else if h.epoch = s.cyc.mappedEpoch ∧ h.epoch ≠ 0 ∧ lists h.map (address s) = true then
         t.cyc.ring = .mapped ∧ t.cyc.mappedEpoch = s.cyc.mappedEpoch
       else t.cyc.ring = .unmapped ∧ t.cyc.mappedEpoch = s.cyc.mappedEpoch) ∧
       t.survey = s.survey ∧ t.race = s.race ∧ t.port.frames = s.port.frames ∧
       t.port.writing = s.port.writing ∧ t.fieldNumber = s.fieldNumber ∧ t.dropped = s.dropped ∧
       t.link.rx = s.link.rx ∧ t.settings.entries.drop 12 = s.settings.entries.drop 12) ∧
  (∀ f s h, NodeTakes f s → parseHeader (headerPart f.symbols) = some h →
     let maps := decide (HeaderMaps h s)
     let told (p : Bool) (r : Report) (v : State) : State := if p = true then queueEvent r v else v
     let shown (l : List CarSummary) (c : Nat) : PlacedCar :=
       { car := c, placing := (summaryAt l c).placing, confirmed := (summaryAt l c).confirmed }
     let changed :=
       ((List.range 8).filter fun c => shown (mirrorSummary s.cyc.mirrors) c != shown h.summary c).map
         (shown h.summary)
     ∃ u, exec (.nodeCycleFrame f) s =
         .next (forwarded .cycle
           (if maps = true then passMapped h f.symbols u else passUnmapped h f.symbols u)) ∧
       u.port = (mirrorSeats h.summary
         (told (maps && !changed.isEmpty)
             (.placing .header changed ((List.range 8).map fun c => (shown h.summary c, 0))
               (h.summary.filter fun k => k.state == .racing).length)
           (told (maps && decide (mirrorPhase s.cyc.mirrors ≠ h.phase ∨ mirrorHeld s.cyc.mirrors ≠ h.held))
               (.phase h.phase h.held h.causes u.time.race .header)
             (told (maps && decide (s.time.go ≠ .fired h.goTime ∧
                   (h.phase = .running ∨ h.phase = .closing ∨
                     (h.phase = .countdown ∧ 0 ≤ signedDiff u.time.link h.goTime))))
                 (.go h.goTime u.time.link u.time.race (decide (0 < u.time.race.toNat)))
               (told (maps && decide (s.cyc.ring ≠ .mapped ∨ h.epoch ≠ s.cyc.mappedEpoch))
                   (.ring (.mapped ((positionOf h.map (address s)).getD 0)) .mapped h.epoch)
                 (told (!maps && decide (s.cyc.ring ≠ .unmapped)) (.ring .unmapped .unmapped h.epoch)
                   (endWaitedOut { s with link := { s.link with errorRun := 0 } }))))))).port)

/-- On a header by which it stays or becomes MAPPED a node sets its link time to the target of a fresh mapping,
and otherwise steps it forward or lets it wait the difference; a header that leaves it UNMAPPED moves no link
time. That a rejoin header taken in MAPPED gives the position anew is the model's choice (log entry 89) (R39,
R40, R41). -/
def Obligations.MappedNodeAlignsLinkTime : Prop :=
  ∀ f s h, NodeTakes f s → parseHeader (headerPart f.symbols) = some h →
    ∃ t, exec (.nodeCycleFrame f) s = .next t ∧
      (let p := (positionOf h.map (address s)).getD 0
       let target := h.linkStamp + BitVec.ofNat 32 (offsetAt h.map p + if f.slowHeader then 26 else 25)
       let d := signedDiff target s.time.link
       if t.cyc.ring = .unmapped then
         t.time.link = s.time.link ∧ t.time.linkStatus = s.time.linkStatus ∧
           t.time.linkWait = s.time.linkWait
       else if h.epoch = s.survey.surveyedEpoch ∧ h.epoch ≠ s.cyc.mappedEpoch then
         t.time.link = target ∧ t.time.linkStatus = .counting ∧ t.time.linkWait = 0
       else if d < 0 then
         t.time.link = s.time.link ∧ t.time.linkStatus = .waiting ∧ t.time.linkWait = (-d).toNat
       else t.time.link = target ∧ t.time.linkStatus = .counting ∧ t.time.linkWait = 0)

/-- What a valid header does to race time and the GO schedule. IDLE and GATHERING set both back in every ring
state. At a node that is or becomes MAPPED: COUNTDOWN arms the schedule with its G and fires it when link time
has reached G, an ARMED or FIRED schedule with another G being set back first, and lets a FIRED one frozen by
the ring run again; RUNNING and CLOSING align a FIRED race time, forward at once, saturating at the top, or by
waiting, freeze it while held, and fire a schedule that is not FIRED with their G late, with the GO pulse and
race time at the header's; RESULTS freezes it, and one learned of so late stands at the header's stamp. A header
that leaves the node not MAPPED moves neither, but for the freeze on entry to UNMAPPED. That HELD and RESULTS
come before NOT MAPPED in the order of causes, that a COUNTDOWN header arms before it fires, and that a RESULTS
header learned of late leaves the schedule FIRED are the model's inferences (log entries 19, 20 and 21); that
the race wait remaining becomes 0 where race time freezes, runs again or is set back is its choice (log entry
88), and so is that a rejoin header taken in MAPPED gives the position anew (log entry 89). The GO and PHASE
reports are in HeaderMovesTheRingState (R42, R44, R45, R47, R49, R50). -/
def Obligations.MappedNodeAlignsRaceTime : Prop :=
  (∀ f s h, NodeTakes f s → parseHeader (headerPart f.symbols) = some h → HeaderMaps h s →
     (h.phase = .running ∨ h.phase = .closing) → h.held = false → s.time.go = .fired h.goTime →
     ∃ t, exec (.nodeCycleFrame f) s = .next t ∧ t.time.go = s.time.go ∧ t.time.pulse = s.time.pulse ∧
       (s.time.raceStatus = .frozen .results →
         t.time.race = s.time.race ∧ t.time.raceStatus = s.time.raceStatus) ∧
       (s.time.raceStatus ≠ .frozen .results → s.time.race.toNat = 4294967295 →
         t.time.race = s.time.race ∧ t.time.raceStatus = .frozen .top) ∧
       (s.time.raceStatus ≠ .frozen .results → s.time.race.toNat < 4294967295 →
         let p := (positionOf h.map (address s)).getD 0
         let target := h.raceStamp.toNat + offsetAt h.map p + if f.slowHeader then 26 else 25
         if target < s.time.race.toNat then
           t.time.race = s.time.race ∧ t.time.raceStatus = .waiting ∧
             t.time.raceWait = s.time.race.toNat - target
         else t.time.race.toNat = min 4294967295 target ∧
           t.time.raceStatus = if target < 4294967295 then .counting else .frozen .top)) ∧
  (∀ f s h, NodeTakes f s → parseHeader (headerPart f.symbols) = some h → HeaderMaps h s →
     (h.phase = .running ∨ h.phase = .closing) → s.time.go ≠ .fired h.goTime →
     ∃ t, exec (.nodeCycleFrame f) s = .next t ∧ t.time.go = .fired h.goTime ∧ t.time.pulse = some 2000 ∧
       (let target := h.raceStamp.toNat + offsetAt h.map ((positionOf h.map (address s)).getD 0) +
          if f.slowHeader then 26 else 25
        t.time.race.toNat = min 4294967295 target ∧
          t.time.raceStatus =
            if h.held = true then .frozen .held
            else if target < 4294967295 then .counting else .frozen .top)) ∧
  (∀ f s h, NodeTakes f s → parseHeader (headerPart f.symbols) = some h → HeaderMaps h s →
     (h.phase = .running ∨ h.phase = .closing) → h.held = true → s.time.go = .fired h.goTime →
     ∃ t, exec (.nodeCycleFrame f) s = .next t ∧ t.time.go = s.time.go ∧ t.time.pulse = s.time.pulse ∧
       t.time.race = s.time.race ∧ t.time.raceStatus = .frozen .held ∧ t.time.raceWait = 0) ∧
  (∀ f s h, NodeTakes f s → parseHeader (headerPart f.symbols) = some h →
     (h.phase = .idle ∨ h.phase = .gathering) →
     ∃ t, exec (.nodeCycleFrame f) s = .next t ∧ t.time.go = .none ∧ t.time.race = 0 ∧
       t.time.raceStatus = .zero ∧ t.time.raceWait = 0 ∧ t.time.pulse = s.time.pulse) ∧
  (∀ f s h, NodeTakes f s → parseHeader (headerPart f.symbols) = some h → HeaderMaps h s →
     h.phase = .countdown →
     ∃ t, exec (.nodeCycleFrame f) s = .next t ∧
       (if s.time.go = .fired h.goTime then
         t.time.go = s.time.go ∧ t.time.pulse = s.time.pulse ∧ t.time.race = s.time.race ∧
           (if s.time.raceStatus = .frozen .lost ∨ s.time.raceStatus = .frozen .notMapped ∨
               s.time.raceStatus = .frozen .standby then
             t.time.raceStatus = (if s.time.race.toNat = 4294967295 then .frozen .top else .counting) ∧
               t.time.raceWait = 0
           else t.time.raceStatus = s.time.raceStatus ∧ t.time.raceWait = s.time.raceWait)
       else if 0 ≤ signedDiff t.time.link h.goTime then
         t.time.go = .fired h.goTime ∧ t.time.pulse = some 2000 ∧
           t.time.race.toNat = (signedDiff t.time.link h.goTime).toNat ∧ t.time.raceStatus = .counting
       else
         t.time.go = .armed h.goTime ∧ t.time.pulse = s.time.pulse ∧
           (if s.time.go = .none ∨ s.time.go = .armed h.goTime then
             t.time.race = s.time.race ∧ t.time.raceStatus = s.time.raceStatus
           else t.time.race = 0 ∧ t.time.raceStatus = .zero ∧ t.time.raceWait = 0))) ∧
  (∀ f s h, NodeTakes f s → parseHeader (headerPart f.symbols) = some h → HeaderMaps h s →
     h.phase = .results →
     ∃ t, exec (.nodeCycleFrame f) s = .next t ∧ t.time.go = .fired h.goTime ∧
       t.time.raceStatus = .frozen .results ∧ t.time.raceWait = 0 ∧ t.time.pulse = s.time.pulse ∧
       t.time.race = if s.time.go = .fired h.goTime then s.time.race else h.raceStamp) ∧
  (∀ f s h, NodeTakes f s → parseHeader (headerPart f.symbols) = some h → ¬ HeaderMaps h s →
     h.phase ≠ .idle → h.phase ≠ .gathering →
     ∃ t, exec (.nodeCycleFrame f) s = .next t ∧ t.time.go = s.time.go ∧ t.time.race = s.time.race ∧
       t.time.pulse = s.time.pulse ∧
       t.time.raceStatus =
         if s.cyc.ring = .unmapped ∨ s.time.raceStatus = .zero ∨ s.time.raceStatus = .frozen .held ∨
             s.time.raceStatus = .frozen .results then s.time.raceStatus
         else .frozen .notMapped)

/-- What a node writes into a frame with a valid header that it forwards: an UNMAPPED node the newcomer flag
alone, and all else as received; a MAPPED node the claim by R66, its lane's bit of the roll when it answers, and
its bit of the attention field while its request is pending, then into each block its own report when a SEATED
seat of the station and the summary name the car, any other block going to the replica store and on as received,
and then into each slot what R68's table makes of it and, where it is EMPTY, its post. The header so marked is
valid again and reads as the same header with those marks and no other change. At an EMPTY slot the station
posts the candidate that the ordering mode in force selects, within the budgets in force and the room of the
outstanding table: an urgent message, the normal queue's message, or the ready segment or abort of a channel; a
place in use, no candidate, a budget used up or a claim further down leaves the slot as it is, and IN-ORDER then
posts nothing more in the frame. That a full outstanding table does not stop it, and that want of a candidate
does, is the model's inference (log entry 35). The posting settings in force are those at the header, whatever a
slot of the frame writes into the settings. The blocks and slots pass the state that the whole work of the
header has left, which is headerWork (its effects and reports are in HeaderMovesTheRingState,
MappedNodeAlignsLinkTime and MappedNodeAlignsRaceTime), and the state after the frame is the one behind the last
slot: the starvation count and the cycles waited follow the frame, and nothing else changes. The layout of a
segment's payload is the model's choice (log entry 17), and so are that a rejoin header taken in MAPPED gives
the position anew (log entry 89) and that the marks are by the ring state after the header's own test (log entry
91); the drawing of that segment's tag at the post is its inference (log entry 59) (R5, R11, R60, R61, R62, R63,
R65, R66, R68, R107, R109, R116). -/
def Obligations.NodeMarksTheHeader : Prop :=
  (∀ f s h, NodeTakes f s → parseHeader (headerPart f.symbols) = some h →
     ∃ t m rest, exec (.nodeCycleFrame f) s = .next t ∧
       t.link.out =
         [{ kind := .cycle, symbols := forwardHeader (headerPart f.symbols) m ++ rest, looped := false }] ∧
       (let p := (positionOf h.map (address s)).getD 0
        let e := endWaitedOut { s with link := { s.link with errorRun := 0 } }
        let atHeader := headerWork (ringTest h e) h f.slowHeader e
        let counted (o : Outstanding) : Outstanding :=
          if o.progress = .waiting ∧ o.spared = false then { o with waited := min 18 (o.waited + 1) }
          else { o with spared := false }
        let own (c k : Nat) (d : CarData) : Prop :=
          k < seatCount s ∧ (∃ w, seatAt (mirrorSeats h.summary e) k = .seated c w) ∧
            ShowsSeat h.summary c k s ∧ s.seat.own.getD k none = some d
        if t.cyc.ring = .unmapped then
          m = { claim := none, roll := 0, attention := 0, newcomer := true } ∧
            rest = (f.symbols.take 608).drop 64 ∧
            t.slots.outstanding = e.slots.outstanding.map counted ∧
            t = { atHeader with
              slots := { atHeader.slots with outstanding := atHeader.slots.outstanding.map counted },
              link := { atHeader.link with out := t.link.out } }
        else
          (m.newcomer = false ∧
            (m.roll = if h.rollEnable = true ∧ setting s 0 < 16 ∧ (s.seat.ready = true ↔ setting s 1 = 1) then
                (1 : Half) <<< setting s 0 else 0) ∧
            (m.attention = if s.seat.attentionPending = true then (1 : Half) <<< address s else 0) ∧
            m.claim =
              if s.slots.claimClear = true then if h.claim = p then some 0 else none
              else if setting s 5 ≤ s.slots.starvation ∧ (h.claim = 0 ∨ p < h.claim) then some p else none) ∧
          ∃ (block slot : Nat → List RxSym) (blocks : Nat → State) (slots : Nat → SlotPass × State),
            rest = (List.range 8).flatMap block ++ (List.range 6).flatMap slot ∧
            blocks 0 = { atHeader with slots := slotsAtHeader (postingNow s) atHeader.slots } ∧
            ((blocks 0).slots = slotsAtHeader (postingNow s) e.slots ∧ (blocks 0).bulk = e.bulk ∧
              (blocks 0).seat = (mirrorSeats h.summary e).seat ∧
              (blocks 0).replica =
                (if h.epoch ≠ s.cyc.mappedEpoch then (setReleaseMarks (summarySet h.summary s)).replica
                 else (summarySet h.summary s).replica)) ∧
            (∀ c < 8,
              let part := (f.symbols.drop (64 + 44 * c)).take 44
              (∀ k d, own c k d →
                block c =
                    (toSymbols (blockBytes
                      { car := c, station := address s, seat := k, valid := true, data := d })).take part.length ∧
                  blocks (c + 1) = blocks c) ∧
              ((∀ k d, ¬ own c k d) →
                block c = part ∧ blocks (c + 1) = takeBlock h.summary c part (blocks c))) ∧
            slots 0 = (SlotPass.start (blocks 8), blocks 8) ∧
            (∀ i < 6,
              let part := (f.symbols.drop (416 + 32 * i)).take 32
              (parseSlot part = none → slot i = part ∧ slots (i + 1) = slots i) ∧
              ∀ x, parseSlot part = some x →
                let a : Slot × State :=
                  match x with
                  | none => (none, (slots i).2)
                  | some k => nodeSlot i k (slots i).2
                let b := postStep (claimFree h.claim p) i a.1 (slots i).1 a.2
                slot i = (if b.1 = x then part else toSymbols (slotBytes b.1)) ∧
                  slots (i + 1) = ({ b.2.1 with starving := b.2.1.starving && wantsSlot b.2.2 }, b.2.2)) ∧
            (let w := afterFrame (slots 6).1 (slots 6).2.slots
             t = { (slots 6).2 with
               slots := { w with outstanding := w.outstanding.map counted },
               link := { (slots 6).2.link with out := t.link.out } } ∧
               t.slots = { w with outstanding := w.outstanding.map counted } ∧
               t.seat = (slots 6).2.seat ∧ t.bulk = (slots 6).2.bulk ∧ t.replica = (slots 6).2.replica ∧
               t.port = (slots 6).2.port))) ∧
  (∀ syms m h, parseHeader syms = some h → (∀ c, m.claim = some c → c ≤ 11) →
     parseHeader (forwardHeader syms m) =
       some { h with claim := m.claim.getD h.claim, roll := h.roll ||| m.roll,
                     attention := h.attention ||| m.attention, newcomer := h.newcomer || m.newcomer }) ∧
  (∀ (free : Bool) place (p : SlotPass) (s : State),
     let b := s.slots.inForce
     let within (budget used : Nat) : Prop := budget = 7 ∨ used < budget
     let room := p.stopped = false ∧ s.slots.outstanding.length < 4
     let noted : SlotPass := { p with offered := p.offered || free }
     let olderThanAll (u : QueuedMsg) : Prop :=
       (∀ m, s.slots.normal.head? = some m → u.order < m.order) ∧
         ∀ ch, ch = 1 ∨ ch = 2 → ∀ o, (chanAt s ch).ready = some o → u.order < o
     let behindOwn (u : QueuedMsg) : Prop :=
       (∃ m ∈ s.slots.normal, m.order < u.order ∧ m.dest = u.dest) ∨
         ∃ ch o, (ch = 1 ∨ ch = 2) ∧ (chanAt s ch).ready = some o ∧ o < u.order ∧
           (chanAt s ch).peer = u.dest
     let urgentTurn (u : QueuedMsg) : Prop :=
       s.slots.urgent.head? = some u ∧
         (if b.order = 0 then olderThanAll u
          else within b.urgent s.slots.urgentUsed ∧ (b.order = 1 → ¬ behindOwn u))
     let normalTurn := (∀ u, ¬ urgentTurn u) ∧ within b.normal s.slots.normalUsed ∧ free = true
     let entry (k : MsgKind) (cls : MsgClass) (tag dest : Nat) (ch : Option Nat) (seat : Nat) : Outstanding :=
       { kind := k, cls := cls, tag := tag, dest := dest, place := place, broadcast := dest == 15,
         waited := 0, progress := .waiting, channel := ch, seat := seat, spared := true }
     let slot (k : MsgKind) (cls : MsgClass) (tag dest : Nat) (payload : List Byte) : SlotMsg :=
       { answered := false, relay := 0, cls := cls, hold := false, source := address s, dest := dest,
         kind := k, tag := tag, outcome := 0, len := payload.length, payload := padPayload payload }
     (∀ m, postStep free place (some m) p s = (some m, p, s)) ∧
     (¬ room → postStep free place none p s = (none, noted, s)) ∧
     (room →
       (∀ u rest, s.slots.urgent = u :: rest → u.cls = .urgent → urgentTurn u →
         (within b.urgent s.slots.urgentUsed →
           postStep free place none p s =
             (some (slot u.kind .urgent u.tag u.dest u.payload), { noted with passedOver := true },
               { s with slots := { s.slots with
                 urgent := rest, urgentUsed := s.slots.urgentUsed + 1,
                 outstanding := s.slots.outstanding ++
                   [entry u.kind .urgent u.tag u.dest none u.seat] } })) ∧
         (¬ within b.urgent s.slots.urgentUsed →
           postStep free place none p s = (none, { noted with stopped := true }, s))) ∧
       (normalTurn → ∀ m rest, s.slots.normal = m :: rest → m.cls = .normal →
         (∀ ch, ch = 1 ∨ ch = 2 → ∀ o, (chanAt s ch).ready = some o → b.order = 0 ∧ m.order < o) →
         postStep free place none p s =
           (some (slot m.kind .normal m.tag m.dest m.payload), { noted with postedNormal := true },
             { s with slots := { s.slots with
               normal := rest, normalUsed := s.slots.normalUsed + 1,
               outstanding := s.slots.outstanding ++
                 [entry m.kind .normal m.tag m.dest none m.seat] } })) ∧
       (normalTurn → ∀ ch o, ch = 1 ∨ ch = 2 → (chanAt s ch).ready = some o →
         (∀ c q, c = 1 ∨ c = 2 → c ≠ ch → (chanAt s c).ready = some q →
           if b.order = 0 then o < q else ch < c) →
         (b.order = 0 → ∀ m, s.slots.normal.head? = some m → o < m.order) →
         let c := chanAt s ch
         let n := min 20 (min c.buffer.length c.remaining)
         let posted (k : MsgKind) (payload : List Byte) (after : SendChannel) : Slot × SlotPass × State :=
           (some (slot k .normal (nextTag s.slots k) c.peer payload), { noted with postedNormal := true },
             { s with
               bulk := { s.bulk with send := s.bulk.send.set (ch - 1) after },
               slots := { s.slots with
                 tagCounter := (nextTag s.slots k + 1) % 256, normalUsed := s.slots.normalUsed + 1,
                 outstanding := s.slots.outstanding ++
                   [entry k .normal (nextTag s.slots k) c.peer (some ch) 0] } })
         (c.abortPending = false →
           postStep free place none p s =
             posted .bulkSegment
               (segmentPayload ch c.nextSeq (c.optEnd && decide (n = c.remaining)) c.total
                 (c.buffer.take n))
               { c with out := some (.segment c.nextSeq n), nextSeq := (c.nextSeq + 1) % 4096,
                        buffer := c.buffer.drop n, ready := none }) ∧
         (c.abortPending = true →
           postStep free place none p s =
             posted .bulkAbort [BitVec.ofNat 8 ch] { c with out := some .abort, ready := none })) ∧
       ((∀ u, ¬ urgentTurn u) →
         free = false ∨ ¬ within b.normal s.slots.normalUsed ∨
           (s.slots.normal = [] ∧ (chanAt s 1).ready = none ∧ (chanAt s 2).ready = none) →
         postStep free place none p s = (none, { noted with stopped := b.order == 0 }, s)))) ∧
  (∀ (claim position : Nat), claimFree claim position = true ↔ claim = 0 ∨ claim ≤ position) ∧
  (∀ (s : State),
     (slotsAtHeader (postingNow s) s.slots).inForce =
         { urgent := setting s 2, normal := setting s 3, order := setting s 4, starvation := setting s 5 } ∧
       ∀ place m, (nodeSlot place m s).2.slots.inForce = s.slots.inForce) ∧
  (∀ (p : SlotPass) (e : SlotEngine),
     (p.postedNormal = true → afterFrame p e = { e with starvation := 0, claimClear := true }) ∧
     (p.postedNormal = false → p.starving = true → p.passedOver = false → p.offered = false →
       afterFrame p e = { e with starvation := min 255 (e.starvation + 1) }) ∧
     (p.postedNormal = false → (p.starving = false ∨ p.passedOver = true ∨ p.offered = true) →
       afterFrame p e = { e with starvation := 0 }))

/-- A collect frame of fewer than 12 entries, with all the entries that its count tells and its END, leaves a
node with the count raised, its own entry behind the others and the checks regenerated; the node restarts its
silence count, records the epoch as surveyed and drops an equal mapped epoch. That one with more bytes than its
count tells is handled so too is the model's choice (log entry 55). A short frame, which END ends before those
entries are whole or which ends without END, leaves ended at the same byte with no entry of the node; that its
header leaves with the count raised and that the node records no epoch is the model's inference (log entry 27).
A frame of 12 entries leaves with the overflow mark and no entry; a frame whose collect header fails its check
leaves as received (R4, R10, R27, R28). -/
def Obligations.CollectFrameAtANode : Prop :=
  (∀ f s h, NodeTakes f s → parseCollectHeader (f.symbols.take 13) = some h → f.ending = .endSymbol →
     h.count < 12 → 13 + 15 * h.count ≤ f.symbols.length →
     ∃ y, exec (.nodeCollectFrame f) s =
         .next { s with
           link := { s.link with
             errorRun := 0, out := [{ kind := .collect, symbols := y, looped := false }] },
           cyc := { s.cyc with silence := some 0,
                               mappedEpoch := if s.cyc.mappedEpoch = h.epoch then 0 else s.cyc.mappedEpoch },
           survey := { s.survey with surveyedEpoch := h.epoch } } ∧
       parseCollectHeader (y.take 13) = some { h with count := h.count + 1 } ∧
       y.drop 13 = f.symbols.drop 13 ++ toSymbols (entryBytes (ownEntry s))) ∧
  (∀ f s, NodeTakes f s →
     (∀ h, parseCollectHeader (f.symbols.take 13) = some h → h.count = 12 →
       ∃ y, exec (.nodeCollectFrame f) s =
           .next { s with
             link := { s.link with
               errorRun := 0, out := [{ kind := .collect, symbols := y, looped := false }] },
             cyc := { s.cyc with silence := some 0 } } ∧
         parseCollectHeader (y.take 13) = some { h with overflow := true } ∧
         y.drop 13 = f.symbols.drop 13) ∧
     (∀ h, parseCollectHeader (f.symbols.take 13) = some h →
       (f.ending ≠ .endSymbol ∨ f.symbols.length < 13 + 15 * h.count) → h.count < 12 →
       ∃ y, exec (.nodeCollectFrame f) s =
           .next { s with
             link := { s.link with
               errorRun := 0, out := [{ kind := .collect, symbols := y, looped := false }] },
             cyc := { s.cyc with silence := some 0 } } ∧
         parseCollectHeader (y.take 13) = some { h with count := h.count + 1 } ∧
         y.drop 13 = f.symbols.drop 13) ∧
     (parseCollectHeader (f.symbols.take 13) = none →
       exec (.nodeCollectFrame f) s =
         .next { s with link := { s.link with
           errorRun := 0, out := [{ kind := .collect, symbols := f.symbols, looped := false }] } }))

/-! ## Slots and bulk segments -/

/-- A slot in use that passes a MAPPED node: its own answer is taken by the waiting entry of its kind, tag and
place and the slot emptied, the entry ending with the outcome in the block that waits for it (an OUTCOME report,
a POLL answer, a seat joined or left, a bulk channel moved on); a stale answer changes nothing; a message for
the node is answered or deferred (a GAME by the room for its report, a POLL by the attention request, a bulk
segment and abort by the bulk unit, a kind that no node serves UNDELIVERABLE); a broadcast is copied by relay
count and position, a CLEAR STATIONS so clearing the node; the hold mark spares the waiting entry; every other
slot is forwarded unchanged. That a CLEAR STATIONS addressed to one station is UNDELIVERABLE is the model's
inference (log entry 36); its choices are the layout of a payload (log entry 17), an own broadcast of relay
count 2 to 15 that stays as it is (log entry 61), and what an ACCEPTED JOIN outcome without a car, or one of a
segment with a short result, does (log entries 62 and 73) (R57, R63, R68, R69, R70, R73, R74, R103, R105, R111,
R112, R155). -/
def Obligations.SlotsAtANode : Prop :=
  ∀ place (m : SlotMsg) (s : State),
    let mine (o : Outstanding) : Prop :=
      o.progress = .waiting ∧ o.kind = m.kind ∧ o.tag = m.tag ∧ o.place = place
    let answered (code len : Nat) (payload : List Byte) : SlotMsg :=
      { m with answered := true, hold := false, outcome := code, len := len, payload := payload }
    (m.answered = true → m.source = address s →
      ((∀ o ∈ s.slots.outstanding, ¬ mine o) → nodeSlot place m s = (none, s)) ∧
      ∀ o ∈ s.slots.outstanding, mine o → (∀ p ∈ s.slots.outstanding, mine p → p = o) →
        ∀ out, outcomeOf m.outcome m.body = some out →
          ∃ t, nodeSlot place m s = (none, t) ∧ Settled o out s t) ∧
    (m.answered = true → m.source ≠ address s → nodeSlot place m s = (some m, s)) ∧
    (m.answered = false → m.dest = address s → m.dest ≠ 15 →
      (m.kind = .game →
        (reportSize (.gameIn m.source m.cls m.tag m.body false) ≤ reportFree s →
          nodeSlot place m s =
            (some (answered 1 0 (List.replicate 24 0)),
              { s with port := { s.port with reports :=
                s.port.reports ++ [.gameIn m.source m.cls m.tag m.body false] } })) ∧
        (reportFree s < reportSize (.gameIn m.source m.cls m.tag m.body false) →
          nodeSlot place m s = (some m, s))) ∧
      (m.kind = .poll → mirrorAnchor s = some m.source →
        let code : Byte := BitVec.ofNat 8 s.seat.attentionCode
        (s.seat.attentionPending = true →
          nodeSlot place m s =
            (some (answered 1 2 (code :: 1 :: List.replicate 22 0)),
              queueEvent (.pollComplete s.seat.attentionCode)
                { s with seat := { s.seat with attentionPending := false } })) ∧
        (s.seat.attentionPending = false →
          nodeSlot place m s = (some (answered 1 2 (code :: 0 :: List.replicate 22 0)), s))) ∧
      (m.kind = .join ∨ m.kind = .leave ∨ m.kind = .clearStations ∨
          ((m.kind = .poll ∨ m.kind = .tableWrite ∨ m.kind = .tableRead) ∧
            mirrorAnchor s ≠ some m.source) →
        nodeSlot place m s = (some (answered 9 0 (List.replicate 24 0)), s)) ∧
      (m.kind = .bulkSegment → serveSlot m s = segmentAt m.source m.body s) ∧
      (m.kind = .bulkAbort → serveSlot m s = abortAt m.source m.body s) ∧
      (∀ t payload, payload.length ≤ 24 → serveSlot m s = (t, some (.accepted payload)) →
        nodeSlot place m s =
          (some (answered 1 payload.length (payload ++ List.replicate (24 - payload.length) 0)), t)) ∧
      (∀ t why, serveSlot m s = (t, some (.declined why)) →
        nodeSlot place m s = (some (answered (declineCode why) 0 (List.replicate 24 0)), t)) ∧
      (∀ t, serveSlot m s = (t, none) → nodeSlot place m s = (some m, t))) ∧
    (m.answered = false → m.dest = 15 → m.source = address s →
      (m.relay ≠ 1 → nodeSlot place m s = (some m, s)) ∧
      (m.relay = 1 → (nodeSlot place m s).1 = none ∧
        ((∀ o ∈ s.slots.outstanding, ¬ mine o) → nodeSlot place m s = (none, s)) ∧
        ∀ o ∈ s.slots.outstanding, mine o → (∀ p ∈ s.slots.outstanding, mine p → p = o) →
          ∃ t, nodeSlot place m s = (none, t) ∧ Settled o (.accepted []) s t)) ∧
    (m.answered = false → m.dest = 15 → m.source ≠ address s → address s ≠ 15 →
      (nodeSlot place m s).1 = some m ∧
      ((mirrorPosition s = none ∨ positionOf (mirrorMap s) m.source = none ∨ 1 < m.relay) →
        nodeSlot place m s = (some m, s)) ∧
      ∀ p q, mirrorPosition s = some p → positionOf (mirrorMap s) m.source = some q →
        ((m.relay = 0 ∧ p ≤ q) ∨ (m.relay = 1 ∧ q ≤ p) → nodeSlot place m s = (some m, s)) ∧
        ((m.relay = 0 ∧ q < p) ∨ (m.relay = 1 ∧ p < q) → m.kind = .clearStations →
          ∃ t, nodeSlot place m s = (some m, t) ∧ CopiesClear s t) ∧
        ((m.relay = 0 ∧ q < p) ∨ (m.relay = 1 ∧ p < q) → m.kind = .game →
          nodeSlot place m s =
            (some m,
              if reportSize (.gameIn m.source m.cls m.tag m.body true) ≤ reportFree s then
                { s with port := { s.port with reports :=
                  s.port.reports ++ [.gameIn m.source m.cls m.tag m.body true] } }
              else
                { s with
                  port := { s.port with notices := insertNotice .messageDrop s.port.notices } }))) ∧
    (m.answered = false → m.dest ≠ 15 → m.dest ≠ address s →
      (m.hold = false ∨ m.source ≠ address s → nodeSlot place m s = (some m, s)) ∧
      (m.hold = true → m.source = address s →
        ∃ l, nodeSlot place m s = (some m, { s with slots := { s.slots with outstanding := l } }) ∧
          l.length = s.slots.outstanding.length ∧
          ∀ (k : Nat) o, s.slots.outstanding[k]? = some o →
            (mine o → l[k]? = some { o with waited := 0, spared := true }) ∧ (¬ mine o → l[k]? = some o)))

/-- A returned slot that fails its check, or is POSTED by a source the map does not list, is emptied and a held
slot is lost with it; a GAME or a bulk segment for the anchor is answered or deferred, and one that it would
defer at relay count 15 is UNDELIVERABLE, and a kind that it does not serve is UNDELIVERABLE; at relay count 15,
to a station not listed, or as a broadcast of a kind that cannot be one, the anchor answers for the destination;
a node's broadcast, GAME or CLEAR STATIONS, is copied on its first return and emptied on its next, and the
anchor's own ends ACCEPTED on its first; an ANSWERED slot of the anchor is taken by its waiting entry, another
goes back to its source or is cleared; a slot carried forward has its relay count raised by 1, and a held one
keeps it; whatever the anchor answers to a slot for it at relay count 14, it answers at 15. JOIN and LEAVE slots
are in JoinASeat, LeaveASeat and ReferralIsDecided. The count that 15 is raised to is free (log entry 16). That
a CLEAR STATIONS addressed to the anchor is UNDELIVERABLE is the model's inference (log entry 36); what an
ACCEPTED JOIN outcome without a car, or one of a segment with a short result, does at its source is its choice
(log entries 62 and 73) (R69, R70, R71, R72, R73, R74, R102, R112). -/
def Obligations.RelayFollowsItsTable : Prop :=
  ∀ place (syms : List RxSym) (s : State),
    (parseSlot syms = some none → relaySlot place syms s = (none, s)) ∧
    (parseSlot syms = none ∨ (∃ m, parseSlot syms = some (some m) ∧ m.answered = false ∧
        lists s.survey.map m.source = false) →
      (relaySlot place syms s).1 = none ∧
      (∀ h ∈ (relaySlot place syms s).2.slots.held, h.place ≠ place) ∧
      ((∀ h ∈ s.slots.held, h.place ≠ place) → (relaySlot place syms s).2 = s) ∧
      ((∃ h ∈ s.slots.held, h.place = place) → (relaySlot place syms s).2.race.referral = .free)) ∧
    ∀ m, parseSlot syms = some (some m) →
      let carried (k : SlotMsg) : Slot := some { k with relay := m.relay + 1 }
      let declined (code : Nat) : SlotMsg :=
        { m with answered := true, hold := false, outcome := code, len := 0,
                 payload := List.replicate 24 0 }
      let mine (o : Outstanding) : Prop :=
        o.progress = .waiting ∧ o.kind = m.kind ∧ o.tag = m.tag ∧ o.place = place
      (m.answered = false → lists s.survey.map m.source = true →
        (m.dest = address s → m.kind = .game → m.hold = false → m.relay < 15 →
          (reportSize (.gameIn m.source m.cls m.tag m.body false) ≤ reportFree s →
            relaySlot place syms s =
              (carried { m with answered := true, outcome := 1, len := 0,
                                payload := List.replicate 24 0 },
                { s with port := { s.port with reports :=
                  s.port.reports ++ [.gameIn m.source m.cls m.tag m.body false] } })) ∧
          (reportFree s < reportSize (.gameIn m.source m.cls m.tag m.body false) → m.dest ≠ 15 →
            lists s.survey.map m.dest = true → relaySlot place syms s = (carried m, s))) ∧
        (m.dest ≠ address s →
          (m.hold = false → m.relay = 15 →
            ∃ r n, relaySlot place syms s =
              (some { declined 9 with relay := r }, { s with freeCount := n }) ∧ r < 16) ∧
          (m.relay < 15 → m.dest = 15 → m.kind ≠ .game → m.kind ≠ .clearStations →
            relaySlot place syms s = (carried (declined 9), s)) ∧
          (m.relay < 15 → m.dest ≠ 15 → lists s.survey.map m.dest = false →
            relaySlot place syms s = (carried (declined 8), s)) ∧
          (m.relay < 15 → m.hold = false → m.dest ≠ 15 → lists s.survey.map m.dest = true →
            relaySlot place syms s = (carried m, s)) ∧
          (m.hold = true → m.dest ≠ 15 → lists s.survey.map m.dest = true →
            relaySlot place syms s = (some m, s)) ∧
          (m.dest = 15 → m.kind = .game → m.hold = false → m.source ≠ address s →
            (m.relay = 0 →
              relaySlot place syms s =
                (carried m,
                  if reportSize (.gameIn m.source m.cls m.tag m.body true) ≤ reportFree s then
                    { s with port := { s.port with reports :=
                      s.port.reports ++ [.gameIn m.source m.cls m.tag m.body true] } }
                  else
                    { s with
                      port := { s.port with notices := insertNotice .messageDrop s.port.notices } })) ∧
            (1 ≤ m.relay → m.relay < 15 → relaySlot place syms s = (none, s))) ∧
          (m.dest = 15 → m.kind = .clearStations → m.hold = false → m.source ≠ address s →
            (m.relay = 0 → ∃ t, relaySlot place syms s = (carried m, t) ∧ CopiesClear s t) ∧
            (1 ≤ m.relay → m.relay < 15 → relaySlot place syms s = (none, s))) ∧
          (m.dest = 15 → m.kind = .game ∨ m.kind = .clearStations → m.source = address s → m.relay = 0 →
            ((∀ o ∈ s.slots.outstanding, ¬ mine o) → relaySlot place syms s = (none, s)) ∧
            ∀ o ∈ s.slots.outstanding, mine o → (∀ p ∈ s.slots.outstanding, mine p → p = o) →
              ∃ t, relaySlot place syms s = (none, t) ∧ Settled o (.accepted []) s t)) ∧
        (m.dest = address s → m.relay < 15 →
          (m.kind = .poll ∨ m.kind = .tableWrite ∨ m.kind = .tableRead → s.cyc.mirrors = none →
            relaySlot place syms s = (carried (declined 9), s)) ∧
          (m.kind = .clearStations → relaySlot place syms s = (carried (declined 9), s)) ∧
          ∀ t, m.kind = .bulkSegment ∨ m.kind = .bulkAbort →
            (∀ payload, payload.length ≤ 24 → serveSlot m s = (t, some (.accepted payload)) →
              relaySlot place syms s =
                (carried { m with answered := true, hold := false, outcome := 1, len := payload.length,
                                  payload := payload ++ List.replicate (24 - payload.length) 0 }, t)) ∧
            (∀ why, serveSlot m s = (t, some (.declined why)) →
              relaySlot place syms s = (carried (declined (declineCode why)), t)) ∧
            (serveSlot m s = (t, none) → m.hold = false → m.dest ≠ 15 → lists s.survey.map m.dest = true →
              relaySlot place syms s = (carried m, t))) ∧
        (m.dest = address s → m.hold = false → m.relay = 15 →
          let left (k : SlotMsg) (t : State) : Prop :=
            ∃ r n, relaySlot place syms s = (some { k with relay := r }, { t with freeCount := n }) ∧ r < 16
          (m.kind = .game → reportFree s < reportSize (.gameIn m.source m.cls m.tag m.body false) →
            left (declined 9) s) ∧
          (∀ t, m.kind = .bulkSegment → serveSlot m s = (t, none) → left (declined 9) t) ∧
          ∀ earlier k t, parseSlot earlier = some (some { m with relay := 14 }) →
            relaySlot place earlier s = (some k, t) → m.dest ≠ 15 → lists s.survey.map m.dest = true →
            (k.answered = true → left k t) ∧
            (k.answered = false → k.hold = true →
              relaySlot place syms s = (some { k with relay := 15 }, t)) ∧
            (k.answered = false → k.hold = false → left (declined 9) t))) ∧
      (m.answered = true →
        (m.source = address s →
          ((∀ o ∈ s.slots.outstanding, ¬ mine o) → relaySlot place syms s = (none, s)) ∧
          ∀ o ∈ s.slots.outstanding, mine o → (∀ p ∈ s.slots.outstanding, mine p → p = o) →
            ∀ out, outcomeOf m.outcome m.body = some out →
              ∃ t, relaySlot place syms s = (none, t) ∧ Settled o out s t) ∧
        (m.source ≠ address s → lists s.survey.map m.source = false ∨ m.relay = 15 →
          relaySlot place syms s = (none, s)) ∧
        (m.source ≠ address s → lists s.survey.map m.source = true → m.relay < 15 → m.hold = false →
          relaySlot place syms s = (carried m, s)))

/-- A BULK SEGMENT meets the rows of R159's table in their order, with the test for room before any entry
changes; a segment taken changes its entry by the steps of R160 and closes it when it completes the stream; a
segment of sequence 0 restarts an entry that expects another; a BULK ABORT closes the entry of its stream and is
always ACCEPTED. The layouts of the payload of a segment, of a BULK ABORT and of their result are the model's
choice (log entry 17), and so is a BULK ABORT payload with bytes behind its channel (log entry 77); its
inference is the notice in place of a RESTARTED report that would take the segment's room (log entry 43) (R154,
R159, R160, R161, R162). -/
def Obligations.SegmentsAtTheirDestination : Prop :=
  (∀ (s : State) source ch seq endMark total (data : List Byte),
    s.bulk.recv.length = 4 → ch < 4 → seq < 4096 → total < 65536 →
    let p := segmentPayload ch seq endMark total data
    let ofStream (e : ReceiveEntry) : Prop := e.source = source ∧ e.channel = ch
    let report (received : Nat) : Report :=
      .bulkSegmentIn source ch seq data endMark (received + data.length) total
    let closed (i : Nat) (why : ReceiveFailure) (e : ReceiveEntry) : State :=
      queueEvent (.bulkFailedReceive e.source e.channel why e.received e.total)
        { s with bulk := { s.bulk with recv := s.bulk.recv.set i none } }
    let entry (received : Nat) : Option ReceiveEntry :=
      some { source := source, channel := ch, expected := (seq + 1) % 4096, total := total,
             received := received + data.length, idle := 0, limit := setting s 11 * 1000 }
    let taken (u : State) (i received : Nat) : State × Option MsgOutcome :=
      (if received + data.length = total then
          queueEvent (.bulkEnd source ch total endMark)
            { u with
              bulk := { u.bulk with recv := u.bulk.recv.set i none },
              port := { u.port with reports := u.port.reports ++ [report received] } }
        else
          { u with
            bulk := { u.bulk with recv := u.bulk.recv.set i (entry received) },
            port := { u.port with reports := u.port.reports ++ [report received] } },
        some (.accepted (beBytes 2 seq ++ beBytes 2 (received + data.length))))
    let good := (ch = 1 ∨ ch = 2) ∧ total ≠ 0 ∧ data ≠ [] ∧ data.length ≤ 20
    (¬ good → (∀ e, some e ∈ s.bulk.recv → ¬ ofStream e) →
      segmentAt source p s = (s, some (.declined .sequence))) ∧
    (good → (∀ e, some e ∈ s.bulk.recv → ¬ ofStream e) →
      (seq ≠ 0 → segmentAt source p s = (s, some (.declined .noEntry))) ∧
      (seq = 0 → total < data.length → segmentAt source p s = (s, some (.declined .sequence))) ∧
      (seq = 0 → data.length ≤ total → none ∉ s.bulk.recv →
        segmentAt source p s = (s, some (.declined .busy))) ∧
      ∀ i < 4, seq = 0 → data.length ≤ total → recvAt s i = none → (∀ j < i, recvAt s j ≠ none) →
        (reportSize (report 0) ≤ reportFree s → segmentAt source p s = taken s i 0) ∧
        (reportFree s < reportSize (report 0) → segmentAt source p s = (s, none))) ∧
    ∀ i < 4, ∀ e, recvAt s i = some e → ofStream e →
      (∀ j < i, ∀ d, recvAt s j = some d → ¬ ofStream d) → (ch = 1 ∨ ch = 2) →
      (good → seq = e.expected → total = e.total → e.received + data.length ≤ e.total →
        (reportSize (report e.received) ≤ reportFree s → segmentAt source p s = taken s i e.received) ∧
        (reportFree s < reportSize (report e.received) → segmentAt source p s = (s, none))) ∧
      (¬ good ∨ ((seq ≠ 0 ∨ e.expected = 0) ∧
          (seq ≠ e.expected ∨ total ≠ e.total ∨ e.total < e.received + data.length)) →
        segmentAt source p s = (closed i .sequence e, some (.declined .sequence))) ∧
      (good → seq = 0 → e.expected ≠ 0 →
        (data.length ≤ total → reportFree s < reportSize (report 0) → segmentAt source p s = (s, none)) ∧
        (total < data.length →
          segmentAt source p s = (closed i .restarted e, some (.declined .sequence))) ∧
        (data.length ≤ total → reportSize (report 0) ≤ reportFree s →
          ∀ j ≤ i, (∀ k < j, recvAt s k ≠ none) → (j = i ∨ recvAt s j = none) →
            let failed : Report := .bulkFailedReceive e.source e.channel .restarted e.received e.total
            (reportSize failed + reportSize (report 0) ≤ reportFree s →
              segmentAt source p s = taken (closed i .restarted e) j 0) ∧
            (reportFree s < reportSize failed + reportSize (report 0) →
              segmentAt source p s =
                taken { s with
                  bulk := { s.bulk with recv := s.bulk.recv.set i none },
                  port := { s.port with notices := insertNotice .bulk s.port.notices } } j 0)))) ∧
  ∀ (s : State) source ch (rest : List Byte), s.bulk.recv.length = 4 → ch < 256 →
    ((∀ e, some e ∈ s.bulk.recv → ¬ (e.source = source ∧ e.channel = ch)) →
      abortAt source (BitVec.ofNat 8 ch :: rest) s = (s, some (.accepted []))) ∧
    ∀ i < 4, ∀ e, recvAt s i = some e → e.source = source → e.channel = ch →
      (∀ j < i, ∀ d, recvAt s j = some d → ¬ (d.source = source ∧ d.channel = ch)) →
      abortAt source (BitVec.ofNat 8 ch :: rest) s =
        (queueEvent (.bulkAborted e.source e.channel e.received)
            { s with bulk := { s.bulk with recv := s.bulk.recv.set i none } },
          some (.accepted []))

/-! ## The anchor's boundaries and frames -/

/-- At a boundary in CYCLING or STALLED with no frame awaited (with one, see MissedReturnsStall) the anchor
emits a cycle frame whose header carries its serial, the next cycle number, its epoch and map, both times, the
phase and causes, G from COUNTDOWN to RESULTS and 0 before, the claim of R67, its roll and attention bits and
the car table; the frame is then awaited and the next boundary lies one period ahead. Its blocks are the cleared
block of a VACANT car, the own report of a car of its own SEATED seat, and the relay copy of any other; its
slots are those held from the last return, with a post of its own into an EMPTY one, and a CLEAR STATIONS that
it posts clears the anchor too. The slots are formed from the state in which the entries at the wait limit have
ended, each with its report, and the seats and the replica store follow the car table, with the SEATS reports of
the seat mirror; and the state after is the one behind the last slot, but for what is said here of its slot
engine, cycle processor and link. The header shows the roll and attention bits as they are before that copy,
which is the model's choice (log entry 64). The posting settings govern the frame as they stand. A SOLO
station's frame enters its loop, which hands it back: after how many µs is the model's choice (log entry 54)
(R13, R14, R19, R56, R64, R67, R94, R108, R110, R112, R116, R117). -/
def Obligations.BoundaryEmitsACycleFrame : Prop :=
  ∀ s d, actingAnchor s = true → (s.cyc.ring = .cycling ∨ s.cyc.ring = .stalled) → s.cyc.awaited = none →
    s.cyc.nextBoundary = some d →
    ∃ t h rest, exec .cycleBoundary s = .next t ∧
      t.link.out =
        [{ kind := .cycle, symbols := toSymbols (headerBytes h) ++ rest, looped := isSolo s }] ∧
      t.link.loop =
        (if isSolo s = true then
          some { kind := .cycle, symbols := toSymbols (headerBytes h) ++ rest,
                 left := (2 * ((toSymbols (headerBytes h) ++ rest).length + 4) + 4) / 5 }
         else (elapse d s).link.loop) ∧
      t.slots.inForce =
        { urgent := setting s 2, normal := setting s 3, order := setting s 4, starvation := setting s 5 } ∧
      (h.serial = ownSerial s ∧ h.cycle = s.cyc.cycleNumber ∧ h.epoch = s.survey.epoch ∧
        h.map = s.survey.map ∧ h.linkStamp = (elapse d s).time.link ∧ h.raceStamp = (elapse d s).time.race ∧
        h.phase = s.race.phase ∧ h.held = anyCause s.race.causes ∧ h.causes = s.race.causes ∧
        (s.race.phase = .idle ∨ s.race.phase = .gathering → h.goTime = 0) ∧
        (s.race.phase ≠ .idle → s.race.phase ≠ .gathering →
          ∀ g, goTimeOf s.time.go = some g → h.goTime = g) ∧
        h.newcomer = false ∧ h.summary = tableSummary s.race ∧ h.lapTotal = setup s 0 ∧
        h.periodCode = setup s 6 ∧ (h.rollEnable = true ↔ setup s 7 = 1) ∧
        h.roll = (if setup s 7 = 1 ∧ answersRoll s = true then rollBit s else 0) ∧
        h.attention = (if s.seat.attentionPending = true then attentionBit (address s) else 0) ∧
        h.claim = if s.slots.claim ≠ 0 ∧ (addrAt s.survey.map s.slots.claim).isSome = true ∧
          s.slots.claimAge < 64 then s.slots.claim else 0) ∧
      (let e := endWaitedOut (elapse d s)
       let own (c : Nat) (o : Owner) (x : CarData) : Prop :=
         (carAt s c).state ≠ .vacant ∧ (carAt s c).owner = some o ∧ o.station = address s ∧
           o.seat < seatCount s ∧
           (∃ w, seatAt (mirrorSeats (tableSummary s.race) e) o.seat = .seated c w) ∧
           s.seat.own.getD o.seat none = some x
       let counted (o : Outstanding) : Outstanding :=
         if o.progress = .waiting ∧ o.spared = false then { o with waited := min 18 (o.waited + 1) }
         else { o with spared := false }
       ∃ (block : Nat → List RxSym) (sent : List Slot) (slots : Nat → SlotPass × State),
         rest = (List.range 8).flatMap block ++ sent.flatMap (fun x => toSymbols (slotBytes x)) ∧
         (∀ c < 8,
           ((carAt s c).state = .vacant → block c = clearedBlock c) ∧
           (∀ o x, own c o x →
             block c = toSymbols (blockBytes
               { car := c, station := address s, seat := o.seat, valid := true, data := x })) ∧
           ((carAt s c).state ≠ .vacant → (∀ o x, ¬ own c o x) →
             block c = s.cyc.relayCopy.getD c (clearedBlock c))) ∧
         (slots 0).1 = SlotPass.start (slots 0).2 ∧
         (slots 0).2 =
           { summarySet (tableSummary s.race) (mirrorSeats (tableSummary s.race) e) with
             slots := (slots 0).2.slots } ∧
         (slots 0).2.slots =
           { e.slots with
             urgentUsed := 0, normalUsed := 0, inForce := postingNow s, claimEmitted := h.claim,
             claim := h.claim,
             claimAge := if h.claim = 0 then 0 else s.slots.claimAge + 1 } ∧
         (slots 0).2.bulk = e.bulk ∧ (slots 0).2.seat = (mirrorSeats (tableSummary s.race) e).seat ∧
         (slots 0).2.replica = (summarySet (tableSummary s.race) s).replica ∧
         sent.length = s.slots.nextSlots.length ∧
         (∀ i x, s.slots.nextSlots[i]? = some x →
           let r := postStep (claimFree h.claim 0) i x (slots i).1 (slots i).2
           sent[i]? = some r.1 ∧ (slots (i + 1)).1 = r.2.1 ∧
             (x = none ∧ r.1.map (·.kind) = some .clearStations → CopiesClear r.2.2 (slots (i + 1)).2) ∧
             (¬ (x = none ∧ r.1.map (·.kind) = some .clearStations) → (slots (i + 1)).2 = r.2.2)) ∧
         (let w := (slots sent.length).2
          t = { w with slots := t.slots, cyc := t.cyc, link := { w.link with out := t.link.out, loop := t.link.loop } } ∧
          t.slots = { w.slots with
            outstanding := w.slots.outstanding.map counted, nextSlots := List.replicate 6 none } ∧
            t.seat = w.seat ∧ t.bulk = w.bulk ∧ t.replica = w.replica ∧ t.port = w.port)) ∧
      t.cyc =
        { s.cyc with awaited := some s.cyc.cycleNumber, cycleNumber := (s.cyc.cycleNumber + 1) % 65536,
                     nextBoundary := some (periodMicros (setup s 6)), silence := t.cyc.silence } ∧
      t.survey = s.survey ∧ t.settings = s.settings ∧ t.race.cars = s.race.cars ∧
      t.race.phase = s.race.phase ∧ t.race.finish = s.race.finish ∧ t.race.causes = s.race.causes ∧
      t.time = { (elapse d s).time with computation := t.time.computation }

/-- At a boundary in SURVEYING with a pass to send and no cycle frame awaited the anchor emits the collect frame
of that pass, its own entry first, with the forthcoming epoch, and nothing else changes but the time that
passes. With a cycle frame still awaited it does the same, and that frame is awaited no more: the slots held for
the next cycle frame are six EMPTY ones and the held-slot list is lost. When the pass sent before has not
returned, the attempt has failed with NO RETURN: the frame is pass 1 of the next attempt, and after attempt 3
the survey fails, with its RING and SURVEY reports, and the boundary is that of CYCLING
(BoundaryEmitsACycleFrame). That this same boundary carries what follows a failure is the model's inference (log
entry 24); its choices are the order of the two reports (log entry 32), the layout of the report SLOT LOST of a
held slot (log entry 70), and the 13 µs after which a SOLO station's frame, which enters its loop, comes back
(log entry 54) (R15, R19, R24, R27, R29, R31, R36, R72, R102). -/
def Obligations.BoundaryEmitsACollectPass : Prop :=
  (∀ s d r n, actingAnchor s = true → s.cyc.ring = .surveying → s.cyc.nextBoundary = some d →
    s.survey.run = some r → r.emitted = false → s.cyc.awaited = some n →
    exec .cycleBoundary s = exec .cycleBoundary (withoutAwaited s)) ∧
  (∀ s d r, actingAnchor s = true → s.cyc.ring = .surveying → s.cyc.nextBoundary = some d →
    s.survey.run = some r → (r.emitted = false → s.cyc.awaited = none) → (r.emitted = true → r.attempt < 3) →
    let sent : SurveyRun :=
      if r.emitted = true then
        { r with attempt := r.attempt + 1, pass := 1, first := none, lastFailure := some .noReturn }
      else { r with emitted := true }
    ∃ b, exec .cycleBoundary s =
        .next { elapse d s with
          link := { s.link with
            out := [{ kind := .collect, symbols := toSymbols b, looped := isSolo s }],
            loop := if isSolo s = true then some { kind := .collect, symbols := toSymbols b, left := 13 }
              else (elapse d s).link.loop },
          cyc := { (elapse d s).cyc with nextBoundary := some (periodMicros (setup s 6)) },
          survey := { s.survey with run := some sent } } ∧
      b = collectHeaderBytes
            { serial := ownSerial s, epoch := s.survey.counter % 255 + 1, attempt := sent.attempt,
              pass := sent.pass, count := 1, overflow := false } ++
          entryBytes
            { address := address s, serial := ownSerial s, role := setting s 13, seatCount := seatCount s,
              title := (signature s).1, revision := (signature s).2 }) ∧
  ∀ s d r, actingAnchor s = true → s.cyc.ring = .surveying → s.cyc.nextBoundary = some d →
    s.survey.run = some r → r.emitted = true → 3 ≤ r.attempt → s.cyc.awaited = none →
    let counts := (r.returned2.or r.returned1).getD (0, 0)
    exec .cycleBoundary s =
      exec .cycleBoundary
        (queueEvent
          (.survey { failure := some .noReturn, attempts := r.attempt, epoch := s.survey.epoch, n := counts.1,
                     r := counts.2, shared := none, missing := 0 })
          (queueEvent (.ring (.cycling s.cyc.missed) .cycling (mirrorEpoch s))
            { s with
              cyc := { s.cyc with ring := .cycling, newcomerLast := none },
              link := { s.link with tx := .emit, byp := isSolo s },
              survey := { s.survey with run := none, latch := true } }))

/-- The missed return that reaches the limit in CYCLING takes the anchor to STALLED: FAULT is held in RUNNING
and CLOSING, COUNTDOWN takes the countdown fault mark, the other phases neither; the RING report STALLED carries
the count, and behind it stands the PHASE report of a FAULT that was not yet held, or in IDLE, GATHERING and
RESULTS the RING report STALL IN PHASE; the next slots are EMPTY, every held slot is lost, and the claim stays;
the boundary emits the frame that it emits in STALLED. Below the limit, and in STALLED, a boundary with a frame
still awaited counts it missed in CYCLING alone: the slots of the frame emitted begin as six EMPTY ones and the
held-slot list is lost, the referral of a held slot becoming FREE with the report SLOT LOST, and all else is as
with no frame awaited (BoundaryEmitsACycleFrame). A claim of age 64 that the map lists is cleared at the
boundary and nothing else but the time passed changes. That the stall and the claim's end come before the
emission at its instant is the model's inference (log entry 42), the layout of the report SLOT LOST and the
order of the reports its choices (log entries 70 and 32) (R14, R15, R52, R64, R67, R72, R84, R86, R102). -/
def Obligations.MissedReturnsStall : Prop :=
  (∀ s d n, actingAnchor s = true → s.cyc.ring = .cycling → s.cyc.awaited = some n →
     setup s 5 ≤ s.cyc.missed + 1 → s.cyc.nextBoundary = some d →
     ∃ t, exec .returnMissLimit s = .next t ∧ t.cyc.ring = .stalled ∧ t.link.tx = .emit ∧
       t.cyc.awaited = none ∧ t.cyc.missed = min 8 (s.cyc.missed + 1) ∧ t.cyc.nextBoundary = some 0 ∧
       t.slots = { s.slots with nextSlots := List.replicate 6 none, held := [] } ∧
       (s.race.phase = .running ∨ s.race.phase = .closing →
         t.race.causes = { s.race.causes with fault := true } ∧
           t.race.countdownMark = s.race.countdownMark ∧
           (anyCause s.race.causes = false → t.time.raceStatus = .frozen .held)) ∧
       (let lost := withoutAwaited (elapse d s)
        let stall :=
          queueEvent (.ring (.stalled (min 8 (s.cyc.missed + 1))) .stalled (mirrorEpoch s)) lost
        t.race.referral = lost.race.referral ∧
          t.port =
            (if s.race.phase = .running ∨ s.race.phase = .closing then
              if s.race.causes.fault = true then stall
              else
                queueEvent
                  (.phase s.race.phase true { s.race.causes with fault := true } lost.time.race .stall) stall
            else if s.race.phase = .countdown then stall
            else queueEvent (.ring (.stallInPhase s.race.phase) .stalled (mirrorEpoch s)) stall).port) ∧
       (s.race.phase = .countdown → t.race.causes = s.race.causes ∧ t.race.countdownMark = true) ∧
       (s.race.phase = .idle ∨ s.race.phase = .gathering ∨ s.race.phase = .results →
         t.race.causes = s.race.causes ∧ t.race.countdownMark = s.race.countdownMark) ∧
       t.race.phase = s.race.phase ∧ t.race.cars = s.race.cars ∧ t.race.finish = s.race.finish ∧
       t.survey = s.survey ∧ t.settings = s.settings ∧ t.seat = s.seat ∧
       exec .cycleBoundary s = exec .cycleBoundary t) ∧
  (∀ s d n, actingAnchor s = true → (s.cyc.ring = .cycling ∨ s.cyc.ring = .stalled) →
     s.cyc.awaited = some n → (s.cyc.ring = .cycling → s.cyc.missed + 1 < setup s 5) →
     s.cyc.nextBoundary = some d →
     let u := withoutAwaited s
     exec .cycleBoundary s =
       exec .cycleBoundary
         { u with cyc := { u.cyc with
           missed := if s.cyc.ring = .cycling then min 8 (s.cyc.missed + 1) else s.cyc.missed } }) ∧
  (∀ s d, actingAnchor s = true → (s.cyc.ring = .cycling ∨ s.cyc.ring = .stalled) → s.slots.claim ≠ 0 →
     (addrAt s.survey.map s.slots.claim).isSome = true → 64 ≤ s.slots.claimAge →
     s.cyc.nextBoundary = some d →
     exec .claimAgeLimit s = .next { elapse d s with slots := { s.slots with claim := 0, claimAge := 0 } })

/-- A frame whose header fails its check, or that carries the anchor's own serial but not the cycle number
awaited, its full length and END, is discarded. A valid return ends the wait and the count of missed returns;
its claim, roll and attention fields and car blocks are taken; STALLED ends by a survey, and a newcomer flag in
IDLE or GATHERING starts one when the setup allows it and the latch is clear; in SURVEYING, before the first
pass, it starts none, and under an empty map, as after Restart, each of its slots is cleared. Its blocks are
read in car order and then, but in SURVEYING, given to the replica store under the car table as it stood; the
ROLL report of a changed roll result and then the ATTENTION report of a newly raised address are queued; its
slots pass the relay in order, whose answers are the next slots; the newcomer flag is remembered and, when
clear, clears the latch; and the RING report is that of the survey, or without one NEWCOMER when the flag
appears. That FAULT and the newcomer's conditions are read as they stood before the blocks of the return is the
model's inference (log entry 26), and so is that a return in SURVEYING gives the replica store no block (log
entry 25); its choices are the order of the reports (log entry 32), the phase that a NEWCOMER report carries
(log entry 80), and that bit 15 of the attention field is as the others (log entry 83). A SOLO station takes the
frame that its loop holds, and no other, when the µs left to it have passed (log entry 54) (R14, R15, R19, R24,
R26, R67, R71, R108, R110, R117, R120, R139). -/
def Obligations.CycleReturnIsTaken : Prop :=
  (∀ f s u, Returned .cycle f s u →
     (parseHeader (headerPart f.symbols) = none → exec (.cycleReturn f) s = .next u) ∧
     ∀ h, parseHeader (headerPart f.symbols) = some h → h.serial = ownSerial s →
       s.cyc.awaited ≠ some h.cycle ∨ f.symbols.length < 608 ∨ f.ending ≠ .endSymbol →
       exec (.cycleReturn f) s = .next u) ∧
  (∀ f s, isSolo s = true → (∀ l, s.link.loop = some l → l.kind ≠ .cycle ∨ f ≠ loopReturn l) →
     exec (.cycleReturn f) s = .next s) ∧
  (∀ f s u h, Returned .cycle f s u → parseHeader (headerPart f.symbols) = some h → h.serial = ownSerial s →
     s.cyc.awaited = some h.cycle → 608 ≤ f.symbols.length → f.ending = .endSymbol →
     ∃ t, exec (.cycleReturn f) s = .next t ∧ t.cyc.awaited = none ∧ t.cyc.missed = 0 ∧
       t.cyc.relayCopy = (List.range 8).map (fun c => blockPart c f.symbols) ∧
       t.race.roll = h.roll ∧ t.race.attention = h.attention ∧ t.slots.claim = h.claim ∧
       t.slots.claimAge = (if h.claim = s.slots.claimEmitted then s.slots.claimAge else 0) ∧
       (s.cyc.ring = .stalled → t.cyc.ring = .surveying ∧ t.survey.run = some newRun) ∧
       (s.cyc.ring = .cycling →
         if (s.race.causes.fault = true ∧ (s.race.phase = .running ∨ s.race.phase = .closing)) ∨
             (h.newcomer = true ∧ (s.race.phase = .idle ∨ s.race.phase = .gathering) ∧ setup s 8 = 1 ∧
               s.survey.latch = false) then
           t.cyc.ring = .surveying ∧ t.survey.run = some newRun
         else t.cyc.ring = .cycling ∧ t.survey.run = s.survey.run) ∧
       (s.cyc.ring = .surveying → t.cyc.ring = .surveying ∧ t.survey.run = s.survey.run) ∧
       (s.survey.map = RingMap.empty → t.slots.nextSlots = List.replicate 6 none) ∧
       t.survey.map = s.survey.map ∧ t.survey.epoch = s.survey.epoch ∧ t.settings.flag = s.settings.flag ∧
       t.cyc.cycleNumber = s.cyc.cycleNumber ∧ t.cyc.nextBoundary = u.cyc.nextBoundary ∧
       t.survey.latch = (h.newcomer && s.survey.latch) ∧ t.cyc.newcomerLast = some h.newcomer ∧
       ∃ (blocks store relayed : Nat → State) (answer : Nat → Slot),
         let told (p : Bool) (r : Report) (v : State) : State := if p = true then queueEvent r v else v
         let raised := h.attention &&& ~~~s.race.attention
         let starts := decide (s.cyc.ring = .stalled ∨
           (s.cyc.ring = .cycling ∧
             ((s.race.causes.fault = true ∧ (s.race.phase = .running ∨ s.race.phase = .closing)) ∨
               (h.newcomer = true ∧ (s.race.phase = .idle ∨ s.race.phase = .gathering) ∧ setup s 8 = 1 ∧
                 s.survey.latch = false))))
         blocks 0 =
           { u with
             cyc := { u.cyc with awaited := none, missed := 0 },
             slots := { u.slots with
               claim := h.claim,
               claimAge := if h.claim = u.slots.claimEmitted then u.slots.claimAge else 0 } } ∧
         (∀ c < 8, blocks (c + 1) = readBlock c (blockPart c f.symbols) (blocks c)) ∧
         store 0 = blocks 8 ∧
         (∀ c < 8, store (c + 1) =
           if s.cyc.ring = .surveying then store c
           else takeBlock (tableSummary s.race) c (blockPart c f.symbols) (store c)) ∧
         relayed 0 =
           told (decide (raised ≠ 0)) (.attention raised h.attention)
             (told (decide (h.roll ≠ s.race.roll))
               (.roll h.roll (h.roll &&& ~~~s.race.roll) (s.race.roll &&& ~~~h.roll))
               { store 8 with
                 cyc := { (store 8).cyc with
                   relayCopy := (List.range 8).map fun c => blockPart c f.symbols },
                 race := { (store 8).race with roll := h.roll, attention := h.attention } }) ∧
         (∀ i < 6, relaySlot i (slotPart i f.symbols) (relayed i) = (answer i, relayed (i + 1))) ∧
         (let v := relayed 6
          let w : State :=
            { v with
              slots := { v.slots with nextSlots := (List.range 6).map answer },
              cyc := { v.cyc with newcomerLast := some h.newcomer },
              survey := { v.survey with latch := h.newcomer && v.survey.latch } }
          t =
            if starts = true then
              queueEvent (.ring .surveying .surveying (mirrorEpoch s))
                { w with
                  cyc := { w.cyc with ring := .surveying, missed := 0 },
                  link := { w.link with tx := .emit, byp := isSolo s },
                  survey := { w.survey with run := some newRun } }
            else
              told (h.newcomer && decide (s.cyc.newcomerLast ≠ some true))
                (.ring (.newcomer w.race.phase) s.cyc.ring (mirrorEpoch s)) w))

/-- A frame with a higher serial is discarded with no effect; a lower one sends the anchor to DEFERRED, which
forwards it, fails its ACTIVE send channels with the reason DEFERRED, ends every WAITING post and receive entry,
drops its survey and freezes race time, with the RING report ANCHOR CONFLICT before the BULK FAILED reports; an
anchor in DEFERRED forwards every frame untouched. A lower one does so too when a loss of signal or 8 code
errors end the frame behind its good header: the anchor's own frame is closed at the byte reached, and the
receiver goes DOWN. A SOLO station receives only its own frames. What ends with the ring is as in
SilenceMovesTheNode. The order of the reports is the model's choice (log entry 32), and so is the race wait
remaining of 0 after the freeze (log entry 88). That the number of the cycle frame last emitted stays is its
inference (log entry 56), and so is that a race time of ZERO stays ZERO and one FROZEN with HELD or RESULTS
keeps its cause (log entries 57 and 19) (R2, R12, R16, R17, R19, R37, R75, R157, R161). -/
def Obligations.ForeignFrameDefersTheAnchor : Prop :=
  ∀ k f sent s,
    (∀ serial, AnchorTakes f s → isSolo s = false → frameSerial k f.symbols = some serial →
      ((ownSerial s).toNat < serial.toNat →
        exec (.foreignFrame k f sent) s =
          .next { s with link := { s.link with errorRun := 0 } }) ∧
      (serial.toNat < (ownSerial s).toNat →
        ∃ t, exec (.foreignFrame k f sent) s = .next t ∧ t.cyc.ring = .deferred ∧
          t.link.tx = .forward ∧ t.link.byp = false ∧
          t.link.out =
            (match sent with
             | none => []
             | some n => (s.link.out.take 1).map fun o => { o with symbols := o.symbols.take n }) ++
              [{ kind := k, symbols := throughput k f.symbols, looped := false }] ∧
          t.cyc.awaited = s.cyc.awaited ∧ t.cyc.nextBoundary = none ∧
          t.survey = { s.survey with run := none } ∧
          (let failed (c : SendChannel) : SendChannel :=
             { c with state := .failed .deferred, abortPending := false, buffer := [], out := none, ready := none }
           let fail (ch : Nat) (v : State) : State :=
             let c := chanAt v ch
             if c.state = .active then
               queueEvent (.bulkFailedSend ch c.peer .deferred (c.total - c.remaining) c.remaining)
                 { v with bulk := { v.bulk with send := v.bulk.send.set (ch - 1) (failed c) } }
             else v
           let told := queueEvent (.ring (.anchorConflict serial) .deferred (mirrorEpoch s))
             { s with cyc := { s.cyc with ring := .deferred }, link := t.link }
           let w := closeAllRing (ringLoss (fail 2 (fail 1 told)))
           t = { w with cyc := { w.cyc with nextBoundary := none }, survey := { w.survey with run := none },
                        time := freezeByRing .deferred w.time } ∧
             (s.bulk.send.length = 2 →
               t.bulk.send = s.bulk.send.map fun c => if c.state = .active then failed c else c)) ∧
          t.slots.urgent = [] ∧ t.slots.normal = [] ∧
          (∀ o ∈ t.slots.outstanding, o.progress ≠ .waiting) ∧
          (s.bulk.recv.length = 4 → ∀ e ∈ t.bulk.recv, e = none) ∧
          t.time.raceStatus ≠ .counting ∧ t.time.raceStatus ≠ .waiting ∧ t.time.link = s.time.link ∧
          t.race.cars = s.race.cars ∧ t.race.phase = s.race.phase ∧ t.settings = s.settings)) ∧
    (s.cyc.ring = .deferred → role s = .anchor → s.link.rx = .up → errorCut 0 f.symbols = none →
      exec (.foreignFrame k f sent) s =
        .next { s with link := { s.link with
          errorRun := 0, out := [{ kind := k, symbols := throughput k f.symbols, looped := false }] } }) ∧
    (actingAnchor s = true → isSolo s = false → s.link.rx = .up →
      let own : List OutFrame :=
        match sent with
        | none => []
        | some n => (s.link.out.take 1).map fun o => { o with symbols := o.symbols.take n }
      (∀ syms serial, frameSerial k syms = some serial → serial.toNat < (ownSerial s).toNat →
        ∃ t, exec (.lossOfSignal (some { kind := k, symbols := syms, sent := sent })) s = .next t ∧
          exec (.errorRunLimit (.inside { kind := k, symbols := syms, sent := sent })) s = .next t ∧
          t.cyc.ring = .deferred ∧ t.link.rx = .down ∧ t.link.tx = .fill ∧
          t.link.out = own ++ [{ kind := k, symbols := throughput k syms, looped := false }]) ∧
      ∀ syms serial, errorCut 0 f.symbols = some syms → frameSerial k syms = some serial →
        serial.toNat < (ownSerial s).toNat →
        ∃ t, exec (.foreignFrame k f sent) s = .next t ∧ t.cyc.ring = .deferred ∧ t.link.rx = .down ∧
          t.link.tx = .fill ∧
          t.link.out = own ++ [{ kind := k, symbols := throughput k syms, looped := false }]) ∧
    (isSolo s = true → exec (.foreignFrame k f sent) s = .next s)

/-- The overflow mark fails the survey, then a shared address; a pass 1 is kept for its pass 2; a pass 2 that
differs from it in its entries, or whose round trip differs by more than 2 units, ends the attempt, and the
survey after the third; a round trip above 2,000 units fails the survey; any other pass 2 gives the map and the
next epoch. A failure leaves the race as it is. A success first makes the ENTERED cars of the stations that the
new map does not list VACANT and their RACING cars RETIRED with the reason ABSENT, but for a race in RESULTS;
then FAULT leaves the held causes, with a PHASE report, and race time runs again when no cause remains; the race
ends when the last RACING car was one of them. The cars are handled one after the other by ascending number,
each retirement with its PLACING report (DeadlineAndLostCars), which is the model's choice (log entry 79).
Either end queues a RING report and a SURVEY report with the reason, the attempts, the epoch, N and R of the
last pass 2 returned or else of the pass 1, the shared address and the number of missing stations. A SOLO
station takes the pass that its loop holds, and no other, with a round trip of 8 units. Which of several shared
addresses is named is the model's choice (log entry 67), and so are the order of the reports, the instant at
which the loop hands a pass back and the race wait remaining of 0 where race time runs again (log entries 32, 54
and 88) (R19, R29, R30, R31, R32, R33, R34, R36, R87). -/
def Obligations.ReturnedPassIsJudged : Prop :=
  (∀ f trip s, isSolo s = true → (∀ l, s.link.loop = some l → l.kind ≠ .collect ∨ f ≠ loopReturn l) →
    exec (.collectReturn f trip) s = .next s) ∧
  ∀ f roundTrip s u r h entries, Returned .collect f s u → s.cyc.ring = .surveying →
    s.survey.run = some r → r.emitted = true → f.ending = .endSymbol →
    parseCollectHeader (f.symbols.take 13) = some h → h.serial = ownSerial s →
    h.epoch = s.survey.counter % 255 + 1 → h.attempt = r.attempt → h.pass = r.pass →
    parseEntries h.count (f.symbols.drop 13) = some entries → roundTrip ≤ 65535 →
    ∃ t, exec (.collectReturn f roundTrip) s = .next t ∧
      (let trip := if isSolo s = true then 8 else roundTrip
       let told (failure : Option SurveyFailure) (epoch : Nat) (nr : Nat × Nat)
           (shared : Option (Nat × Serial × Serial)) (missing : Nat) (v : State) : State :=
         queueEvent (.survey (SurveyReport.mk failure r.attempt epoch nr.1 nr.2 shared missing))
           (queueEvent (.ring (.cycling s.cyc.missed) .cycling (mirrorEpoch s)) v)
       let measured := (entries.length, trip)
       let failed (why : SurveyFailure) (shared : Option (Nat × Serial × Serial)) : Prop :=
         t = told (some why) s.survey.epoch (if r.pass = 1 then r.returned2.getD measured else measured) shared 0
           { u with
             survey := { s.survey with run := none, latch := true },
             cyc := { u.cyc with ring := .cycling, newcomerLast := none },
             link := { u.link with tx := .emit, byp := isSolo s } }
       if h.overflow = true then failed .tooMany none
       else if sharedAddress entries ≠ none then failed .duplicate (sharedAddress entries)
       else if r.pass = 1 then
         t = u.withSurvey { s.survey with
           run := some { r with pass := 2, emitted := false, returned1 := some (entries.length, trip),
                                first := some { entries := entries, roundTrip := trip } } }
       else
         ∀ p, r.first = some p →
           if entries ≠ p.entries ∨ trip + 2 < p.roundTrip ∨ p.roundTrip + 2 < trip then
             if r.attempt < 3 then
               t = u.withSurvey { s.survey with
                 run := some { r with attempt := r.attempt + 1, pass := 1, emitted := false, first := none,
                                      lastFailure := some .unstable,
                                      returned2 := some (entries.length, trip) } }
             else failed .unstable none
           else if 2000 < trip then failed .tooLong none
           else
             let m := surveyMap entries trip
             let epoch := s.survey.counter % 255 + 1
             let absent (c : Nat) : Prop := ∃ o, (carAt s c).owner = some o ∧ lists m o.station = false
             let applied (c : Nat) : Prop := absent c ∧ s.race.phase ≠ .results
             let stations := (s.race.cars.filterMap fun k => k.owner.map fun o => o.station).filter fun a =>
               !lists m a
             let held : HeldCauses := { fault := false, command := s.race.causes.command }
             let resumed : Timebase :=
               if s.race.causes.fault = true ∧ s.race.causes.command = false then
                 { u.time with
                   raceStatus := if u.time.race.toNat = 4294967295 then .frozen .top else .counting,
                   raceWait := 0 }
               else u.time
             t.cyc = { u.cyc with ring := .cycling, newcomerLast := none } ∧
             t.survey = { s.survey with map := m, epoch := epoch, counter := epoch, entries := entries,
                                        run := none, latch := false } ∧
             (∃ (v : State) (after : Nat → State),
               t = told none epoch measured none stations.dedup.length v ∧
               ((after 0).race = u.race ∧ (after 0).time = u.time ∧ (after 0).port = u.port ∧
                 (∀ c < 8, after (c + 1) =
                   if (carAt s c).state = .racing ∧ applied c then retireCar .absent c (after c)
                   else if (carAt s c).state = .entered ∧ applied c then
                     { after c with race := { (after c).race with cars := (after c).race.cars.set c Car.vacant } }
                   else after c) ∧
                 (s.race.cars.length = 8 →
                   v.port =
                     (let w := after 8
                      if w.race.causes.fault = true then
                        queueEvent
                          (.phase w.race.phase w.race.causes.command
                            { fault := false, command := w.race.causes.command } w.time.race .surveySuccess) w
                      else w).port)) ∧
               ((∀ c < 8, ¬ applied c) → s.race.cars.length = 8 →
                 v.port =
                   (if s.race.causes.fault = true then
                     queueEvent
                       (.phase s.race.phase s.race.causes.command held u.time.race .surveySuccess) u
                   else u).port)) ∧
             t.race.countdownMark = false ∧ t.race.causes.fault = false ∧ t.slots = s.slots ∧
             t.seat = s.seat ∧ t.replica = s.replica ∧ t.settings = s.settings ∧ t.race.setup = s.race.setup ∧
             t.race.grid = s.race.grid ∧
             (s.race.cars.length = 8 →
               (∀ c < 8,
                 (applied c → (carAt s c).state = .entered → carAt t c = Car.vacant) ∧
                 (applied c → (carAt s c).state = .racing →
                   carAt t c = { carAt s c with state := .retired, reason := some .absent, timer := none }) ∧
                 (¬ applied c ∨ ((carAt s c).state ≠ .entered ∧ (carAt s c).state ≠ .racing) →
                   carAt t c = carAt s c)) ∧
               ((∀ c < 8, ¬ ((carAt s c).state = .racing ∧ applied c)) ∨
                   (∃ c < 8, (carAt s c).state = .racing ∧ ¬ applied c) →
                 t.race.phase = s.race.phase ∧ t.race.causes = held ∧ t.time = resumed) ∧
               ((∃ c < 8, (carAt s c).state = .racing) →
                 (∀ c < 8, (carAt s c).state = .racing → applied c) →
                 s.race.phase = .running ∨ s.race.phase = .closing →
                 t.race.phase = .results ∧ t.race.causes = { fault := false, command := false } ∧
                   t.time.raceStatus = .frozen .results)))

/-- The map of a successful survey lists the addresses of the N entries in their order and none behind them; the
offset of position p from 1 to N - 1 is p x (32 N + C) / (10 N) microseconds rounded to the nearest integer with
halves upward, where C is R - 32 (N - 1), taken as 0 below 0; every other offset is 0, and the largest possible
is 186 (R32). -/
def Obligations.SurveyOffsets : Prop :=
  ∀ (entries : List CollectEntry) (r : Nat), 1 ≤ entries.length → entries.length ≤ 12 → r ≤ 2000 →
    (∀ p < 12, (surveyMap entries r).addr.getD p 15 =
      match entries[p]? with
      | some e => e.address
      | none => 15) ∧
    (∀ p < 12, offsetAt (surveyMap entries r) p ≤ 186) ∧ offsetAt (surveyMap entries r) 0 = 0 ∧
    (∀ p < 12, entries.length ≤ p → offsetAt (surveyMap entries r) p = 0) ∧
    ∀ p < entries.length, 1 ≤ p →
      let n : Int := entries.length
      let c : Int := max 0 ((r : Int) - 32 * (n - 1))
      let o : Int := offsetAt (surveyMap entries r) p
      2 * (p * (32 * n + c)) - 10 * n < 20 * n * o ∧ 20 * n * o ≤ 2 * (p * (32 * n + c)) + 10 * n

/-! ## The timebase, the field and the timers -/

/-- The ends of the link wait and the race wait, the top of race time and the end of the GO pulse: the count or
pin that each concerns moves as the rules give, a waiting count holds until then, and nothing else changes but
by the time passed (log entry 2). Of time that passes beyond the end of a wait or of the pulse the count takes
the rest, race time at most to its top. That the race wait remaining is 0 once race time stands at the top is
the model's choice (log entry 88) (R38, R40, R42, R45, R50). -/
def Obligations.WaitsAndPulseEnd : Prop :=
  ∀ s : State,
    (s.time.linkStatus = .waiting →
      let u := elapse s.time.linkWait s
      u.time.link = s.time.link ∧
        exec .linkWaitEnd s = .next { u with time := { u.time with linkStatus := .counting, linkWait := 0 } }) ∧
    (s.time.raceStatus = .waiting →
      let u := elapse s.time.raceWait s
      u.time.race = s.time.race ∧
        exec .raceWaitEnd s =
          .next { u with time := { u.time with
            raceStatus := if s.time.race.toNat = 4294967295 then .frozen .top else .counting,
            raceWait := 0 } }) ∧
    (s.time.raceStatus = .counting →
      let u := elapse (4294967295 - s.time.race.toNat) s
      u.time.race.toNat = 4294967295 ∧
        exec .raceTimeTop s =
          .next { u with time := { u.time with raceStatus := .frozen .top, raceWait := 0 } }) ∧
    (∀ d, s.time.pulse = some d →
      exec .goPulseEnd s = .next { elapse d s with time := { (elapse d s).time with pulse := none } }) ∧
    (∀ d, s.time.linkStatus = .waiting →
      (d ≤ s.time.linkWait → (elapse d s).time.link = s.time.link ∧ (elapse d s).time.linkStatus = .waiting ∧
        (elapse d s).time.linkWait = s.time.linkWait - d) ∧
      (s.time.linkWait < d →
        (elapse d s).time.link = s.time.link + BitVec.ofNat 32 (d - s.time.linkWait) ∧
          (elapse d s).time.linkStatus = .counting ∧ (elapse d s).time.linkWait = 0)) ∧
    (∀ d, s.time.raceStatus = .waiting →
      (d ≤ s.time.raceWait → (elapse d s).time.race = s.time.race ∧ (elapse d s).time.raceStatus = .waiting ∧
        (elapse d s).time.raceWait = s.time.raceWait - d) ∧
      (s.time.raceWait < d →
        let v := s.time.race.toNat + (d - s.time.raceWait)
        (elapse d s).time.race.toNat = min 4294967295 v ∧ (elapse d s).time.raceWait = 0 ∧
          (elapse d s).time.raceStatus = if 4294967295 < v then .frozen .top else .counting)) ∧
    ∀ d left, s.time.pulse = some left →
      (elapse d s).time.pulse = if d ≤ left then some (left - d) else none

/-- At the anchor the schedule becomes FIRED, the pulse starts, race time is 0, every ENTERED car becomes RACING
from zero and the countdown fault mark becomes the cause FAULT; with no car to race the race passes to RESULTS
at once. At a node race time is 0, counting while MAPPED and frozen by the ring state otherwise, and the race
controller changes nothing. Each queues a GO report with G, link time, race time 0 and the late flag clear,
behind which the anchor's PHASE reports follow, an order that is the model's choice (log entry 32); that a
firing which changes phase and causes together queues one PHASE report for both is its inference (log entry 33)
(R48, R50, R52, R78, R81, R84, R147). -/
def Obligations.GoFires : Prop :=
  (∀ s g, actingAnchor s = true → s.time.go = .armed g → s.time.linkStatus = .counting →
     signedDiff s.time.link g < 0 →
     ∃ t, exec .goFire s = .next t ∧ t.time.link = g ∧ t.time.go = .fired g ∧ t.time.pulse = some 2000 ∧
       t.time.race = 0 ∧ t.race.countdownMark = false ∧
       t.race.cars = s.race.cars.map (fun k =>
         if k.state = .entered then
           { k with state := .racing, laps := 0, stamp := 0, crossing := 0, timer := some 0 }
         else k) ∧
       (if ∃ k ∈ s.race.cars, k.state = .entered ∨ k.state = .racing then
         t.race.phase = .running ∧ t.race.causes = { fault := s.race.countdownMark, command := false } ∧
           t.time.raceStatus = if s.race.countdownMark = true then .frozen .held else .counting
       else t.race.phase = .results ∧ t.race.causes = { fault := false, command := false } ∧
         t.time.raceStatus = .frozen .results) ∧
       (let causes : HeldCauses := { fault := s.race.countdownMark, command := false }
        let running := queueEvent (.phase .running s.race.countdownMark causes 0 .goFired)
          (queueEvent (.go g g 0 false) s)
        t.port = (if ∃ k ∈ s.race.cars, k.state = .entered ∨ k.state = .racing then running
          else queueEvent (.phase .results false { fault := false, command := false } 0 .noRacingCar)
            running).port) ∧
       t.race.setup = s.race.setup ∧ t.race.grid = s.race.grid ∧ t.slots = s.slots ∧ t.seat = s.seat ∧
       t.survey = s.survey ∧ t.settings = s.settings ∧ t.cyc.ring = s.cyc.ring) ∧
  (∀ s g, nodeRole s = true → nodeTakes s.cyc.ring = true → s.time.go = .armed g →
     s.time.linkStatus = .counting → signedDiff s.time.link g < 0 →
     ∃ t, exec .goFire s = .next t ∧ t.time.link = g ∧ t.time.go = .fired g ∧ t.time.pulse = some 2000 ∧
       t.time.race = 0 ∧
       t.time.raceStatus = (if s.cyc.ring = .mapped then .counting
         else if s.cyc.ring = .lost then .frozen .lost else .frozen .notMapped) ∧
       t.port = (queueEvent (.go g g 0 false) s).port ∧ t.race.cars = s.race.cars ∧ t.race.phase = s.race.phase ∧ t.slots = s.slots ∧ t.seat = s.seat ∧
       t.survey = s.survey ∧ t.settings = s.settings ∧ t.cyc.ring = s.cyc.ring)

/-- An edge of FIELD after at least 1 microsecond low, at a configured station with no computation in progress,
latches both times, raises the field number and starts a computation whose bundle carries them; any other edge
changes nothing. Each car is treated by the first row that matches: an own car is shown from its own-report
record; in a repeat field (held, LOST, STANDBY or DEFERRED) any other is shown with its last presented values
and nothing is written; otherwise a NONE entry is shown without values, a GONE one stands at its block data, and
a FRESH or STALE one is extrapolated and smoothed (ResidualsStayWithinTheSnap), STALE when its interval has been
clamped to the horizon. The end of the computation writes the presentation state and freshness so formed into
each entry that has not been cleared since, and offers the bundle: placed whole with the dropped count, which
becomes 0, or dropped with the count raised to at most 255 and the BUNDLE OVERRUN notice. That the bundle is
formed from the state at the edge, and that an entry made GONE meanwhile stays GONE, is the model's inference
(log entry 30), and so is that a car of a repeat field shows the velocities and the lap count of its stored
block data (log entry 31) (R54, R122, R127, R128, R134, R135, R136, R137, R178, R179). -/
def Obligations.FieldEdgeAndItsBundle : Prop :=
  (∀ (s : State) (low : Nat),
     (1 ≤ low → configured s = true → s.time.computation = none →
       ∃ k, exec (.fieldEdge low) s =
           .next { s with
             time := { s.time with latch := some (s.time.link, s.time.race), computation := some k },
             fieldNumber := s.fieldNumber + 1, freeCount := s.freeCount + 1 } ∧
         k.elapsed = 0 ∧ k.bundle.number = s.fieldNumber + 1 ∧ k.bundle.linkTime = s.time.link ∧
         k.bundle.raceTime = s.time.race ∧ k.bundle.phase = racePhase s ∧ k.bundle.held = heldFlag s ∧
         k.bundle.cars.length = 8) ∧
     (low = 0 ∨ configured s = false ∨ s.time.computation ≠ none → exec (.fieldEdge low) s = .next s)) ∧
  (∀ s k, s.time.computation = some k →
     (208 ≤ reportFree s →
       exec .fieldComputationEnd s =
         .next { s with
           replica := writeEntries k s.replica, time := { s.time with computation := none },
           port := { s.port with reports := s.port.reports ++ [.bundle { k.bundle with dropped := s.dropped }] },
           dropped := 0 }) ∧
     (reportFree s < 208 →
       exec .fieldComputationEnd s =
         .next { s with
           replica := writeEntries k s.replica, time := { s.time with computation := none },
           port := { s.port with notices := insertNotice .bundleOverrun s.port.notices },
           dropped := min 255 (s.dropped + 1) })) ∧
  (∀ (s : State) (low c : Nat), 1 ≤ low → configured s = true → s.time.computation = none → c < 8 →
     let q := summaryAt (shownSummary s) c
     let e := entryAt s c
     let tp := s.time.link + BitVec.ofNat 32 (setting s 6)
     let own : Prop := q.state ≠ .vacant ∧ q.station = address s
     let repeats : Prop :=
       heldFlag s = true ∨ s.cyc.ring = .lost ∨ s.cyc.ring = .standby ∨ s.cyc.ring = .deferred
     let shown (src : BundleSource) (f : Freshness) (x y z : Int) (h : Half) (d : CarData) : BundleCar :=
       { state := q.state, source := src, fresh := f, x := x, y := y, z := z, heading := h, vx := d.vx,
         vy := d.vy, vz := d.vz, laps := d.laps, placing := q.placing, confirmed := q.confirmed }
     let blank (f : Freshness) : BundleCar :=
       { state := q.state, source := .none, fresh := f, x := 0, y := 0, z := 0, heading := 0, vx := 0,
         vy := 0, vz := 0, laps := 0, placing := q.placing, confirmed := q.confirmed }
     ∃ t k b w, exec (.fieldEdge low) s = .next t ∧ t.time.computation = some k ∧
       k.live = List.replicate 8 true ∧ k.bundle.cars[c]? = some b ∧ k.writes[c]? = some w ∧
       (k.bundle.rep = true ↔ repeats) ∧
       (own → w = none ∧
         (∀ d, q.seat < seatCount s → s.seat.own.getD q.seat none = some d →
           b = shown .own e.fresh d.x d.y d.z d.heading d) ∧
         (seatCount s ≤ q.seat ∨ s.seat.own.getD q.seat none = none → b = blank e.fresh)) ∧
       (¬ own → repeats → w = none ∧
         (∀ p d, e.pres = some p → e.data = some d → b = shown .held e.fresh p.px p.py p.pz p.ph d) ∧
         (e.pres = none ∨ e.data = none → b = blank e.fresh)) ∧
       (¬ own → ¬ repeats →
         (e.fresh = .none → w = none ∧ b = blank .none) ∧
         (∀ d, e.fresh = .gone → e.data = some d →
           b = shown .standing .gone d.x d.y d.z d.heading d ∧
             w = some { fresh := .gone,
                        pres := { used := d, rx := 0, ry := 0, rz := 0, rh := 0, px := d.x, py := d.y,
                                  pz := d.z, ph := d.heading } }) ∧
         (∀ d, e.fresh = .fresh ∨ e.fresh = .stale → e.data = some d →
           let p := presentCar s tp e.pres d
           let f : Freshness :=
             if ((setting s 7 * 1000 : Nat) : Int) < signedDiff tp d.linkStamp then .stale else .fresh
           b = shown .presented f p.px p.py p.pz p.ph d ∧ w = some { fresh := f, pres := p }))) ∧
  (∀ (k : Computation) (l : List ReplicaEntry),
     (writeEntries k l).length = l.length ∧
     ∀ (i : Nat) e, l[i]? = some e →
       (k.writes.getD i none = none ∨ k.live.getD i false = false ∨ e.fresh = .none →
         (writeEntries k l)[i]? = some e) ∧
       ∀ w, k.writes.getD i none = some w → k.live.getD i false = true → e.fresh ≠ .none →
         (writeEntries k l)[i]? =
           some { e with fresh := if e.fresh = .gone then .gone else w.fresh, pres := some w.pres })

/-- Every post that has waited 18 cycles ends with the outcome LOST: none stays WAITING, every other entry
stays, and the ring, the race and the times are untouched. Of a GAME, table message or CLEAR STATIONS the
OUTCOME report is placed, or the entry is kept as REPORT PENDING where it lacks room; a POLL gives its answer
report; a JOIN leaves its seat UNSEATED; a bulk segment fails its channel. A receive entry whose idle timer
reaches its limit closes with BULK FAILED, reason IDLE (R73, R74, R103, R155, R158, R161, R162). -/
def Obligations.WaitLimitsCloseEntries : Prop :=
  (∀ s : State, ∃ t, exec .outstandingWaitLimit s = .next t ∧
     (∀ o ∈ t.slots.outstanding, o.progress = .waiting → o.waited < 18) ∧
     (∀ o ∈ s.slots.outstanding, o.progress ≠ .waiting ∨ o.waited < 18 → o ∈ t.slots.outstanding) ∧
     t.slots.urgent = s.slots.urgent ∧ t.slots.normal = s.slots.normal ∧ t.race = s.race ∧
     t.time = s.time ∧ t.cyc = s.cyc ∧ t.survey = s.survey ∧ t.settings = s.settings ∧ t.link = s.link ∧
     t.replica = s.replica) ∧
  (∀ (s : State) (o : Outstanding),
     (s.slots.outstanding.filter fun p => p.progress == .waiting && decide (18 ≤ p.waited)) = [o] →
     let u : State :=
       { s with slots := { s.slots with outstanding := s.slots.outstanding.erase o } }
     let report : Report := .outcome o.kind o.tag o.dest .lost
     (o.kind = .game ∨ o.kind = .tableWrite ∨ o.kind = .tableRead ∨ o.kind = .clearStations →
       (reportSize report ≤ reportFree s →
         exec .outstandingWaitLimit s =
           .next { u with port := { s.port with reports := s.port.reports ++ [report] } }) ∧
       (reportFree s < reportSize report →
         exec .outstandingWaitLimit s =
           .next { s with slots := { s.slots with
             outstanding := s.slots.outstanding.erase o ++
               [{ o with progress := .reportPending .lost s.slots.outcomeOrder }],
             outcomeOrder := s.slots.outcomeOrder + 1 } })) ∧
     (o.kind = .poll →
       exec .outstandingWaitLimit s = .next (queueEvent (.pollAnswer o.dest o.tag .lost) u)) ∧
     (o.kind = .join → ∀ w, seatAt s o.seat = .requested w →
       ∃ t, exec .outstandingWaitLimit s = .next t ∧ seatAt t o.seat = .unseated ∧ t.slots = u.slots) ∧
     (o.kind = .bulkSegment → ∀ ch n count, o.channel = some ch → (ch = 1 ∨ ch = 2) →
       (chanAt s ch).state = .active → (chanAt s ch).out = some (.segment n count) →
       s.bulk.send.length = 2 →
       ∃ t, exec .outstandingWaitLimit s = .next t ∧ (chanAt t ch).state = .failed .lost ∧
         (chanAt t ch).out = none ∧ (chanAt t ch).buffer = [] ∧ t.slots = u.slots)) ∧
  (∀ s i e, recvAt s i = some e →
     let u := elapse (e.limit - e.idle) s
     exec (.receiveIdleLimit i) s =
       .next (queueEvent (.bulkFailedReceive e.source e.channel .idle e.received e.total)
         { u with bulk := { u.bulk with recv := u.bulk.recv.set i none } }))

/-- The close deadline makes every RACING car UNPLACED and ends the race: RESULTS, no held cause, race time
frozen, every entry of the finish list confirmed. A RACING car whose timer lies the lost limit behind race time
is RETIRED with the reason LOST, and the race ends when it was the last. Each queues one PLACING report, of the
cause DEADLINE or RETIREMENT, with the cars changed, the finish list and the racing count as they are after it,
and the end of the race its PHASE report behind that, in the model's order (log entry 32); so does every
retirement, whatever its reason (R78, R83, R92, R93, R144, R146, R147, R149). -/
def Obligations.DeadlineAndLostCars : Prop :=
  (∀ s dl, actingAnchor s = true → (s.race.phase = .running ∨ s.race.phase = .closing) →
     s.race.deadline = some dl → (dl.toNat ≤ s.time.race.toNat ∨ s.time.raceStatus = .counting) →
     ∃ t, exec .closeDeadline s = .next t ∧
       t.race.cars = s.race.cars.map (fun k =>
         if k.state = .racing then { k with state := .unplaced, timer := none } else k) ∧
       t.race.phase = .results ∧ t.race.causes = { fault := false, command := false } ∧
       t.time.raceStatus = .frozen .results ∧ dl.toNat ≤ t.time.race.toNat ∧
       t.race.finish = s.race.finish.map (fun e => { e with confirmed := true }) ∧
       t.port =
         (queueEvent (raceEndReport t.time.race)
           (queueEvent (placingReport .deadline s.race t.race) s)).port ∧
       t.race.deadline = s.race.deadline ∧ t.race.setup = s.race.setup ∧ t.race.grid = s.race.grid ∧
       t.slots = s.slots ∧ t.seat = s.seat ∧ t.survey = s.survey ∧ t.settings = s.settings) ∧
  (∀ s c t0, actingAnchor s = true → (carAt s c).state = .racing → (carAt s c).timer = some t0 →
     t0.toNat + setup s 4 * 100000 ≤ s.time.race.toNat →
     ∃ t, exec (.lostCarLimit c) s = .next t ∧
       carAt t c = { carAt s c with state := .retired, reason := some .lost, timer := none } ∧
       (∀ b, b ≠ c → carAt t b = carAt s b) ∧
       ((∃ b, b ≠ c ∧ (carAt s b).state = .racing) →
         t.race.phase = s.race.phase ∧ t.race.causes = s.race.causes ∧
           t.port = (queueEvent (placingReport .retirement s.race t.race) s).port) ∧
       ((∀ b, b ≠ c → (carAt s b).state ≠ .racing) →
         (s.race.phase = .running ∨ s.race.phase = .closing) →
         t.race.phase = .results ∧ t.time.raceStatus = .frozen .results ∧
           t.port =
             (queueEvent (raceEndReport t.time.race)
               (queueEvent (placingReport .retirement s.race t.race) s)).port) ∧
       t.race.finish.map FinishEntry.car = s.race.finish.map FinishEntry.car ∧
       t.race.setup = s.race.setup ∧ t.slots = s.slots ∧ t.seat = s.seat ∧ t.survey = s.survey ∧
       t.settings = s.settings) ∧
  (∀ why c (s : State), (carAt s c).state = .racing →
     let t := retireCar why c s
     carAt t c = { carAt s c with state := .retired, reason := some why, timer := none } ∧
       (∀ b, b ≠ c → carAt t b = carAt s b) ∧ t.port = (retirementReports t s).port)

/-! ## The cabinet port -/

/-- Every byte written counts against the length byte, so that a frame ends where the game board placed its end;
a byte written into a full FIFO is dropped and marks its frame damaged. An empty frame is removed with no reply,
a damaged frame is refused with MALFORMED, and a code that names no command with UNKNOWN. That an empty frame
stays while a reply waits is the model's choice (log entry 85), and so is that the reply to a damaged frame that
lost its code byte names no code (log entry 87) (R163, R165). -/
def Obligations.CommandBytesMakeFrames : Prop :=
  (∀ (b : Byte) (s : State),
     (s.port.writing = none → cfull s = false → b ≠ 0 →
       exec (.commandByteWrite b) s =
         .next { s with port := { s.port with
           writing := some { need := b.toNat, bytes := [b], damaged := false, codeNext := true,
                             code := none } } }) ∧
     (s.port.writing = none → cfull s = false → b = 0 →
       exec (.commandByteWrite b) s =
         .next { s with port := { s.port with frames :=
           s.port.frames ++ [{ bytes := [b], damaged := false, code := none }] } }) ∧
     (s.port.writing = none → cfull s = true →
       exec (.commandByteWrite b) s =
         .next { s with port := { s.port with frames :=
           s.port.frames ++ [{ bytes := [], damaged := true, code := none }] } }) ∧
     ∀ w, s.port.writing = some w →
       let bytes := if cfull s = true then w.bytes else w.bytes ++ [b]
       let damaged := w.damaged || cfull s
       let code := if w.codeNext = true ∧ cfull s = false then some b else w.code
       if w.need ≤ 1 then
         exec (.commandByteWrite b) s =
           .next { s with port := { s.port with
             writing := none,
             frames := s.port.frames ++ [{ bytes := bytes, damaged := damaged, code := code }] } }
       else
         exec (.commandByteWrite b) s =
           .next { s with port := { s.port with
             writing := some { need := w.need - 1, bytes := bytes, damaged := damaged, codeNext := false,
                               code := code } } }) ∧
  (∀ s : State, s.port.waiting = none →
     (∀ f rest, s.port.frames = f :: rest → f.damaged = false → f.bytes.length ≤ 1 →
       exec .emptyFrame s = .next { s with port := { s.port with frames := rest } }) ∧
     (∀ f rest, s.port.frames = f :: rest → f.damaged = true →
       exec .damagedFrame s =
         .next (giveReply (match f.code with
             | none => .nothing
             | some b => .code b) (.refused .malformed)
           { s with port := { s.port with frames := rest } })) ∧
     (∀ f rest, s.port.frames = f :: rest → f.damaged = false → 1 < f.bytes.length →
       ∀ code, exec (.unknownCommand code) s =
         .next (giveReply (.code code) (.refused .unknown)
           { s with port := { s.port with frames := rest } }))) ∧
  (∀ s : State, s.port.waiting ≠ none → exec .emptyFrame s = .next s)

/-- A read strobe drives the oldest byte of the report FIFO, which leaves it, and 0 when it is empty. A waiting
reply, the notice set and the outcome that has waited longest are each placed when the FIFO has room for them,
and nothing changes while it lacks it. A report frame is a length byte that counts the bytes after it, then the
code of its kind and its contents, the most significant byte of a number first. The sizes of the reports and the
packing of their contents are the model's choice (log entries 6 and 7) (R74, R164, R166, R167, R176, R179). -/
def Obligations.ReportsAreReadAndPlaced : Prop :=
  (∀ s : State,
     (s.port.reports = [] →
       exec .reportByteRead s = .next { s with port := { s.port with dataOut := 0 } }) ∧
     ∀ r rest, s.port.reports = r :: rest →
       (s.port.headRead + 1 < reportSize r →
         exec .reportByteRead s =
           .next { s with port := { s.port with headRead := s.port.headRead + 1,
                                                dataOut := reportByteAt r s.port.headRead } }) ∧
       (reportSize r ≤ s.port.headRead + 1 →
         exec .reportByteRead s =
           .next { s with port := { s.port with reports := rest, headRead := 0,
                                                dataOut := reportByteAt r s.port.headRead } })) ∧
  (∀ s : State,
     (∀ r, s.port.waiting = some r →
       (reportSize r ≤ reportFree s →
         exec .replyPlaced s =
           .next { s with port := { s.port with waiting := none, reports := s.port.reports ++ [r] } }) ∧
       (reportFree s < reportSize r → exec .replyPlaced s = .next s)) ∧
     (s.port.notices ≠ [] →
       (reportSize (.notice s.port.notices) ≤ reportFree s →
         exec .noticePlaced s =
           .next { s with port := { s.port with
             notices := [], reports := s.port.reports ++ [.notice s.port.notices] } }) ∧
       (reportFree s < reportSize (.notice s.port.notices) → exec .noticePlaced s = .next s)) ∧
     (s.port.notices = [] → exec .noticePlaced s = .next s)) ∧
  (∀ r, (∀ b, r ≠ .bundle b) →
     (reportFrame r).length = reportSize r ∧ reportByteAt r 0 = BitVec.ofNat 8 (reportSize r - 1) ∧
       reportByteAt r 1 = Config.reportKindCode (reportKind r)) ∧
  (∀ (g link race : Micros) (late : Bool),
     (reportFrame (.go g link race late)).drop 2 =
       beBytes 4 g.toNat ++ beBytes 4 link.toNat ++ beBytes 4 race.toNat ++ [if late = true then 1 else 0]) ∧
  (∀ (result set cleared : Half),
     (reportFrame (.roll result set cleared)).drop 2 =
       [result.extractLsb' 8 8, result.extractLsb' 0 8, set.extractLsb' 8 8, set.extractLsb' 0 8,
        cleared.extractLsb' 8 8, cleared.extractLsb' 0 8]) ∧
  (∀ s o out n, o ∈ s.slots.outstanding → o.progress = .reportPending out n →
     (∀ p ∈ s.slots.outstanding, ∀ q m, p.progress = .reportPending q m → p ≠ o → n < m) →
     (reportSize (.outcome o.kind o.tag o.dest out) ≤ reportFree s →
       exec .reportPendingPlaced s =
         .next { s with
           slots := { s.slots with outstanding := s.slots.outstanding.erase o },
           port := { s.port with reports := s.port.reports ++ [.outcome o.kind o.tag o.dest out] } }) ∧
     (reportFree s < reportSize (.outcome o.kind o.tag o.dest out) →
       exec .reportPendingPlaced s = .next s))

/-- The level of LOCK# changes neither the flag nor the list; a group is protected while it is in the list and
the flag is on or LOCK# asserted; Protect On is taken at either level, Protect Off and Protection List Write
only with LOCK# released and LOCKED otherwise, and an unknown group is MALFORMED at either level, which is the
model's inference (log entry 75) (R172, R175). -/
def Obligations.ProtectionFollowsTheKey : Prop :=
  ∀ s : State,
    (∀ level, exec (.lockChange level) s = .next { s with settings := { s.settings with lock := level } }) ∧
    (∀ g, protectedGroup s.settings g = true ↔
      (s.settings.flag = true ∨ s.settings.lock = true) ∧
        ((g = .roll ∧ s.settings.list.roll = true) ∨ (g = .posting ∧ s.settings.list.posting = true) ∨
          (g = .presentation ∧ s.settings.list.presentation = true))) ∧
    (CommandReady s →
      exec (.protectOn true) s =
        .next (giveReply (.command .protectOn) (.done (.protection true s.settings.list))
          { dropFrame s with settings := { s.settings with flag := true } }) ∧
      (s.settings.lock = false →
        exec (.protectOff true) s =
            .next (giveReply (.command .protectOff) (.done (.protection false s.settings.list))
              { dropFrame s with settings := { s.settings with flag := false } }) ∧
          ∀ groups, exec (.protectionListWrite true groups false) s =
            .next (giveReply (.command .protectionListWrite) (.done (.protection s.settings.flag groups))
              { dropFrame s with settings := { s.settings with list := groups } })) ∧
      (s.settings.lock = true →
        Refused .protectOff (.protectOff true) .locked s ∧
          ∀ groups, Refused .protectionListWrite (.protectionListWrite true groups false) .locked s) ∧
      ∀ groups, Refused .protectionListWrite (.protectionListWrite true groups true) .malformed s)

/-! ## The station's own commands -/

/-- A Configure for a node stores its fields, releases BYP and enters LISTENING with the silence count at zero
and the RING report of the change. One for an ANCHOR or SOLO enters SURVEYING, with its RING report, with link
time 0, attempt 1 and pass 1 sent at once and the next boundary one period ahead; a SOLO station keeps BYP and
turns its receiver to the loop, UP, with the RING report LINK UP if it was DOWN, and its frame enters the loop.
The order of the reports, the reply behind them, is the model's choice (log entry 32), and so are the 13 µs of
the loop (log entry 54) (R8, R10, R12, R13, R18, R19, R24, R27, R169). -/
def Obligations.ConfigureStartsTheStation : Prop :=
  (∀ s a r n (title revision : Half), canTake s = true → configured s = false → s.settings.entries.length = 20 →
     a ≤ 14 → (r = 2 ∧ 1 ≤ n ∧ n ≤ 2 ∨ r = 3 ∧ n = 0) →
     exec (.configure true a r n title revision) s =
       .next (giveReply (.command .configure) (.done .none)
         (queueEvent (.ring .listening .listening (mirrorEpoch s))
           { dropFrame s with
             settings := { s.settings with
               entries := s.settings.entries.take 12 ++ [a, r, n, title.toNat, revision.toNat] ++
                 s.settings.entries.drop 17 },
             cyc := { s.cyc with ring := .listening, silence := some 0 },
             link := { s.link with tx := txFor .listening s.link.rx, byp := false } }))) ∧
  (∀ s a r n (title revision : Half), canTake s = true → configured s = false → s.settings.entries.length = 20 →
     a ≤ 14 → (r = 1 ∧ n ≤ 2 ∨ r = 4 ∧ 1 ≤ n ∧ n ≤ 2) →
     ∃ u b, exec (.configure true a r n title revision) s =
         .next (giveReply (.command .configure) (.done .none) u) ∧
       u.settings = { s.settings with
         entries := s.settings.entries.take 12 ++ [a, r, n, title.toNat, revision.toNat] ++
           s.settings.entries.drop 17 } ∧
       u.cyc = { s.cyc with ring := .surveying, missed := 0,
                            nextBoundary := some (periodMicros (setup s 6)) } ∧
       u.time = { s.time with link := 0, linkStatus := .counting, linkWait := 0 } ∧
       u.survey = { s.survey with run := some (SurveyRun.mk 1 1 true none none none none) } ∧
       u.link.tx = .emit ∧ (u.link.byp = true ↔ r = 4) ∧
       u.link.out = [{ kind := .collect, symbols := toSymbols b, looped := r == 4 }] ∧
       u.link.loop = (if r = 4 then some { kind := .collect, symbols := toSymbols b, left := 13 }
         else s.link.loop) ∧
       b = collectHeaderBytes
             { serial := ownSerial s, epoch := s.survey.counter % 255 + 1, attempt := 1, pass := 1,
               count := 1, overflow := false } ++
           entryBytes { address := a, serial := ownSerial s, role := r, seatCount := n, title := title,
                        revision := revision } ∧
       (if r = 4 then u.link.rx = .up ∧ u.link.fillRun = 0 ∧ u.link.errorRun = 0 else u.link.rx = s.link.rx) ∧
       (let entered := queueEvent (.ring .surveying .surveying (mirrorEpoch s)) (dropFrame s)
        u.port = (if r = 4 ∧ s.link.rx = .down then
          queueEvent (.ring .linkUp .surveying (mirrorEpoch s)) entered else entered).port) ∧
       u.slots = s.slots ∧ u.race = s.race ∧ u.seat = s.seat ∧ u.replica = s.replica ∧ u.bulk = s.bulk)

/-- Restart empties both FIFOs and the notice set, places its reply first, returns every block to its Restart
values and keeps the settings, the race setup and grid, the receiver, the epochs of a node and the epoch
counter. The number of the cycle frame last emitted stays, so that the frame may still make a valid return
before the first collect pass (CycleReturnIsTaken), which is the model's inference (log entry 56); that the
newcomer flag of the previous valid return is forgotten is its choice (log entry 86) (R22, R23, R38, R56, R77,
R95, R113, R117, R118, R151, R170, R178). -/
def Obligations.RestartReturnsEveryBlock : Prop :=
  ∀ s, CommandReady s →
    ∃ t, exec (.restart true) s = .next t ∧
      t.port = { t.port with frames := [], reports := [.reply (.command .restart) (.done .none)],
                             headRead := 0, waiting := none, notices := [] } ∧
      t.link = { s.link with
        tx := if anchorRole s = true then .emit else txFor .listening s.link.rx,
        byp := isSolo s } ∧
      t.cyc = { t.cyc with
        ring := if anchorRole s = true then .surveying else .listening, mirrors := none,
        mappedEpoch := s.cyc.mappedEpoch, silence := if anchorRole s = true then none else some 0,
        missed := 0, cycleNumber := 0, awaited := s.cyc.awaited, newcomerLast := none,
        relayCopy := clearedBlocks } ∧
      t.survey =
        { map := RingMap.empty, epoch := 0, counter := s.survey.counter, entries := [],
          run := if anchorRole s = true then some (SurveyRun.mk 1 1 false none none none none) else none,
          latch := false, surveyedEpoch := s.survey.surveyedEpoch } ∧
      t.time = { s.time with
        link := if anchorRole s = true then 0 else s.time.link, linkStatus := .counting, linkWait := 0,
        race := 0, raceStatus := .zero, raceWait := 0, go := .none, latch := none, computation := none } ∧
      t.slots = State.reset.slots ∧
      t.race = { State.reset.race with setup := s.race.setup, grid := s.race.grid } ∧
      t.seat = State.reset.seat ∧ t.replica = State.reset.replica ∧ t.bulk = State.reset.bulk ∧
      t.fieldNumber = 0 ∧ t.dropped = 0 ∧ t.settings = s.settings

/-- Standby takes a node out of the ring: its posts end, its queues are emptied, no send channel stays ACTIVE,
its receive entries close and both times freeze; it keeps its Ready flag and attention, settings, mirrors,
epochs, replica entries and own reports; in STANDBY it is DONE with no effect. A frame being forwarded is first
closed with END at the byte reached, and so taken as a short frame; its symbols are counted, so that the run of
code errors behind them stays and the eighth of a run takes the receiver DOWN. Resume Ring takes a node from
STANDBY to LISTENING, BYP released, the silence count at zero and link time counting from its frozen value; in
any other ring state of a node it is DONE with no effect. The model's choices are that the RING report stands
before the reply (log entry 32), and how a frame being forwarded is handed over and counted (log entry 29) (R2,
R4, R12, R18, R20, R21, R75, R157). -/
def Obligations.StandbyAndResumeRing : Prop :=
  (∀ s cut, CommandReady s → nodeRole s = true →
     (nodeTakes s.cyc.ring = true → s.bulk.send.length = 2 → s.bulk.recv.length = 4 →
       let u := standbyCut cut (dropFrame s)
       ∃ t, exec (.standby { fits := true, cut := cut }) s = .next t ∧
         t.cyc = { u.cyc with ring := .standby, silence := none } ∧
         t.link.tx = .fill ∧ t.link.byp = true ∧ t.link.rx = u.link.rx ∧ t.link.fillRun = u.link.fillRun ∧
         t.link.errorRun = u.link.errorRun ∧ t.link.out = u.link.out ∧ t.slots.urgent = [] ∧
         t.slots.normal = [] ∧ (∀ o ∈ t.slots.outstanding, o.progress ≠ .waiting) ∧
         (∀ c ∈ t.bulk.send, c.state ≠ .active) ∧ (∀ e ∈ t.bulk.recv, e = none) ∧
         t.time.linkStatus = .frozen ∧ t.time.link = u.time.link ∧ t.time.raceStatus ≠ .counting ∧
         t.time.raceStatus ≠ .waiting ∧ t.time.race = u.time.race ∧ t.survey = u.survey ∧
         t.settings = u.settings ∧ t.replica = u.replica ∧ t.seat.own = u.seat.own ∧
         t.seat.ready = u.seat.ready ∧ t.seat.attentionPending = u.seat.attentionPending ∧
         t.race = u.race ∧ t.fieldNumber = u.fieldNumber) ∧
     (s.cyc.ring = .standby →
       exec (.standby { fits := true, cut := cut }) s = .next (giveReply (.command .standby) (.done .none) (dropFrame s)))) ∧
  (∀ s, standbyCut none s = s) ∧
  (∀ (c : CutFrame) s,
     (s.link.rx = .down → standbyCut (some c) s = { s with link := { s.link with fillRun := 0 } }) ∧
     (s.link.rx = .up →
       (errorCut 0 c.symbols = none → ∀ front n, c.symbols = front ++ List.replicate n .codeError →
         (∀ rest, front ≠ rest ++ [RxSym.codeError]) →
         let u := cutFrame (some c) s
         n < 8 ∧ standbyCut (some c) s = { u with link := { u.link with errorRun := n } }) ∧
       ∀ cut, errorCut 0 c.symbols = some cut →
         let u := cutFrame (some { c with symbols := cut }) s
         standbyCut (some c) s =
           queueEvent (.ring .linkDown u.cyc.ring (mirrorEpoch u))
             { u with link := { u.link with rx := .down, fillRun := 0, errorRun := 0,
                                            tx := txFor u.cyc.ring .down } })) ∧
  (∀ (c : CutFrame) s, nodeReceives s = true →
     let u := cutFrame (some c) s
     (c.kind = .cycle → ∃ y, u.link.out = [{ kind := .cycle, symbols := y, looped := false }] ∧
       y.length = min 608 c.symbols.length ∧
       (parseHeader (headerPart c.symbols) = none → y = c.symbols.take 608 ∧
         u = { s with link := { s.link with out := u.link.out }, freeCount := s.freeCount + 1 })) ∧
     (c.kind = .collect → parseCollectHeader (c.symbols.take 13) = none →
       u = { s with
         link := { s.link with out := [{ kind := .collect, symbols := c.symbols, looped := false }] },
         freeCount := s.freeCount + 1 }) ∧
     u.settings.entries.drop 12 = s.settings.entries.drop 12 ∧ u.race.cars = s.race.cars ∧
     u.race.phase = s.race.phase) ∧
  (∀ s, CommandReady s → nodeRole s = true →
     (s.cyc.ring = .standby →
       exec (.resumeRing true) s =
         .next (giveReply (.command .resumeRing) (.done .none)
           (queueEvent (.ring .listening .listening (mirrorEpoch s))
             { dropFrame s with
               cyc := { s.cyc with ring := .listening, silence := some 0 },
               link := { s.link with tx := txFor .listening s.link.rx, byp := false },
               time := { s.time with linkStatus := .counting } }))) ∧
     (s.cyc.ring ≠ .standby →
       exec (.resumeRing true) s = .next (giveReply (.command .resumeRing) (.done .none) (dropFrame s))))

/-- Status is taken in every role and ring state and changes nothing but the port: it returns the state of the
part named, field by field; the claim and its age, the countdown fault mark and the referral record are an
anchor's, and the offset is that of a MAPPED node. It is MALFORMED for a selector that names no part, for a car
number above 7 and for a frame whose length does not suit it (R55, R163, R168). -/
def Obligations.StatusReturnsTheState : Prop :=
  ∀ s part, canTake s = true →
    let q := dropFrame s
    let gives (d : StatusData) : Prop :=
      exec (.status true part) s = .next (giveReply (.command .status) (.done (.status d)) q)
    ((∃ n, part = .unknown n ∨ (8 ≤ n ∧ (part = .car n ∨ part = .replica n))) →
      Refused .status (.status true part) .malformed s) ∧
    Refused .status (.status false part) .malformed s ∧
    (part = .link →
      gives (.link s.link.rx s.link.tx s.link.byp s.cyc.ring s.cyc.mirrors s.cyc.mappedEpoch)) ∧
    (part = .survey →
      gives (.survey s.survey.map s.survey.epoch s.survey.entries
        (s.survey.run.map fun r => (r.attempt, r.pass)) s.survey.surveyedEpoch)) ∧
    (part = .time →
      gives (.time s.time.link s.time.linkStatus s.time.linkWait s.time.race s.time.raceStatus
        s.time.raceWait s.time.go s.time.pulse.isSome s.time.latch s.time.computation.isSome
        (if anchorRole s = true then some s.race.countdownMark else none)
        (if s.cyc.ring = .mapped then (mirrorPosition s).map (offsetAt (mirrorMap s)) else none))) ∧
    (part = .slots →
      gives (.slots s.slots.urgent.length s.slots.normal.length s.slots.outstanding s.slots.starvation
        (if anchorRole s = true then some (s.slots.claim, s.slots.claimAge) else none) s.slots.held)) ∧
    (part = .race →
      gives (.race s.race.phase s.race.causes s.race.countdownMark s.race.setup s.race.grid
        (s.race.finish.map fun e =>
          (PlacedCar.mk e.car (placingOf s.race.finish e.car) (confirmedOf s.race.finish e.car), e.time))
        s.race.deadline)) ∧
    (∀ c < 8, part = .car c →
      gives (.car c (carAt s c) (placingOf s.race.finish c) (confirmedOf s.race.finish c))) ∧
    (part = .seats →
      gives (.seats s.seat.seats s.seat.ready s.seat.attentionPending s.seat.attentionCode
        [leavePending s 0, leavePending s 1] (if anchorRole s = true then some s.race.referral else none)
        s.race.roll s.race.attention)) ∧
    (part = .ownReports → gives (.ownReports s.seat.own)) ∧
    (∀ c < 8, part = .replica c → gives (.replica c (entryAt s c))) ∧
    (part = .bulk →
      gives (.bulk s.bulk.send (s.bulk.send.map fun c => c.state == .active && !c.abortPending)
        (s.bulk.send.map fun c => c.state != .active) s.bulk.recv)) ∧
    (part = .port →
      gives (.port (commandBytes q.port) (reportFree s) s.port.notices (decide (256 ≤ commandBytes q.port))
        (attn s) s.settings.lock s.fieldNumber s.dropped)) ∧
    (part = .settings → gives (.settings s.settings.entries s.settings.flag s.settings.list))

/-- Local Trigger starts the 2 ms GO pulse, in any configured role when the station's race phase is IDLE, with
DONE and no report; a node with empty mirrors reads as IDLE, and an anchor in DEFERRED reads its kept phase; it
is refused with PHASE in any other phase and with NOT CONFIGURED at an UNCONFIGURED station (R53). -/
def Obligations.LocalTriggerStartsThePulse : Prop :=
  ∀ s, canTake s = true →
    (configured s = true → racePhase s = .idle →
      exec (.localTrigger true) s =
        .next (giveReply (.command .localTrigger) (.done .none)
          { dropFrame s with time := { s.time with pulse := some 2000 } })) ∧
    (configured s = true → racePhase s ≠ .idle → Refused .localTrigger (.localTrigger true) .phase s) ∧
    (configured s = false → Refused .localTrigger (.localTrigger true) .notConfigured s) ∧
    (nodeRole s = true → s.cyc.mirrors = none → racePhase s = .idle) ∧
    (s.cyc.ring = .deferred → anchorRole s = true → racePhase s = s.race.phase)

/-! ## The race commands -/

/-- A Survey that is taken enters SURVEYING with attempt 1, pass 1 and the newcomer latch clear, and is BUSY
while a survey runs. That the RING report stands before the reply is the model's choice (log entry 32) (R24,
R25, R26). -/
def Obligations.SurveyCommandStartsASurvey : Prop :=
  ∀ s, AnchorReady s →
    (s.race.phase = .idle ∨ s.race.phase = .gathering ∨ s.race.phase = .results ∨
      ((s.race.phase = .running ∨ s.race.phase = .closing) ∧ anyCause s.race.causes = true)) →
    (s.survey.run = none →
      exec (.survey true) s =
        .next (giveReply (.command .survey) (.taken .none)
          (queueEvent (.ring .surveying .surveying (mirrorEpoch s))
            { dropFrame s with
              cyc := { s.cyc with ring := .surveying, missed := 0 },
              link := { s.link with tx := .emit, byp := isSolo s },
              survey := { s.survey with run := some (SurveyRun.mk 1 1 false none none none none),
                                        latch := false } }))) ∧
    (s.survey.run ≠ none → Refused .survey (.survey true) .busy s)

/-- Open Gathering moves the phase from IDLE to GATHERING with race time 0; Close Gathering moves it back, makes
every ENTERED car VACANT and answers a pending referral DECLINED NOT GATHERING. Start Race moves it from
GATHERING to COUNTDOWN and arms the schedule with G, the link time plus the lead clamped into 1,000 to 10,000
ms; the ENTERED cars stay; a pending referral is answered DECLINED NOT GATHERING, of the anchor's own seat at
once, which becomes UNSEATED. That the PHASE report stands before the reply is the model's choice (log entry
32), and so is the race wait remaining of 0 beside ZERO (log entry 88); that a DECIDED record keeps its time
left is its inference (log entry 60) (R46, R78, R80, R81, R99, R102). -/
def Obligations.GatheringAndStart : Prop :=
  (∀ s, AnchorReady s →
     (s.race.phase = .idle →
       exec (.openGathering true) s =
         .next (giveReply (.command .openGathering) (.done .none)
           (queueEvent (.phase .gathering (anyCause s.race.causes) s.race.causes 0 .openGathering)
             { dropFrame s with
               race := { s.race with phase := .gathering },
               time := { s.time with race := 0, raceStatus := .zero, raceWait := 0 } }))) ∧
     (s.race.phase = .gathering →
       ∃ u, exec (.closeGathering true) s = .next (giveReply (.command .closeGathering) (.done .none) u) ∧
         u = { s with
           race := { s.race with
             phase := .idle, referral := u.race.referral,
             cars := s.race.cars.map fun k => if k.state = .entered then Car.vacant else k },
           time := { s.time with race := 0, raceStatus := .zero, raceWait := 0 },
           seat := { s.seat with seats := u.seat.seats }, port := u.port } ∧
         (∀ j place source tag left, s.race.referral = .pending j (.slot place source tag) left →
           u.race.referral = .decided j (.slot place source tag) (.declined .notGathering) left ∧
             u.seat = s.seat) ∧
         (∀ j left, s.race.referral = .pending j .own left →
           u.race.referral = .free ∧
             ∀ w, seatAt s j.seat = .requested w → seatAt u j.seat = .unseated) ∧
         ((∀ j carrier left, s.race.referral ≠ .pending j carrier left) →
           u.race.referral = s.race.referral ∧ u.seat = s.seat))) ∧
  (∀ s lead, AnchorReady s → s.race.phase = .gathering → (∃ k ∈ s.race.cars, k.state = .entered) →
     ∃ u, exec (.startRace true lead) s = .next (giveReply (.command .startRace) (.done .none) u) ∧
       u = { s with
         race := { s.race with phase := .countdown, referral := u.race.referral },
         time := { s.time with
           race := 0, raceStatus := .zero, raceWait := 0,
           go := .armed (s.time.link + BitVec.ofNat 32 (min 10000 (max 1000 lead) * 1000)) },
         seat := { s.seat with seats := u.seat.seats }, port := u.port } ∧
       (∀ j place source tag left, s.race.referral = .pending j (.slot place source tag) left →
         u.race.referral = .decided j (.slot place source tag) (.declined .notGathering) left ∧
           u.seat = s.seat) ∧
       (∀ j left, s.race.referral = .pending j .own left →
         u.race.referral = .free ∧
           ∀ w, seatAt s j.seat = .requested w → seatAt u j.seat = .unseated) ∧
       ((∀ j carrier left, s.race.referral ≠ .pending j carrier left) →
         u.race.referral = s.race.referral ∧ u.seat = s.seat))

/-- Abort Race in COUNTDOWN, RUNNING and CLOSING, and Clear Race in RESULTS, empty the race: IDLE, every car
VACANT, no finish list, deadline, cause or fault mark, race time 0 and no schedule; a GO pulse runs on. A finish
list that was not empty gives a PLACING report of the cause CLEARED. That the PHASE report stands before it and
both before the reply is the model's choice (log entry 32), and so is the race wait remaining of 0 beside ZERO
(log entry 88); that a held race gives one PHASE report is its inference (log entry 33) (R50, R51, R82, R83,
R148, R149). -/
def Obligations.AbortAndClearEmptyTheRace : Prop :=
  ∀ s, AnchorReady s →
    let race : RaceControl :=
      { s.race with phase := .idle, cars := List.replicate 8 Car.vacant, finish := [], deadline := none,
                    causes := { fault := false, command := false }, countdownMark := false }
    let time : Timebase := { s.time with race := 0, raceStatus := .zero, raceWait := 0, go := .none }
    (s.race.phase = .countdown ∨ s.race.phase = .running ∨ s.race.phase = .closing →
      ∃ u, exec (.abortRace true) s = .next (giveReply (.command .abortRace) (.done .none) u) ∧
        u = { s with race := race, time := time, port := u.port } ∧
        (s.race.finish = [] →
          u = queueEvent (.phase .idle false { fault := false, command := false } 0 .abortRace)
            { dropFrame s with race := race, time := time }) ∧
        (s.race.finish ≠ [] →
          u = queueEvent (placingReport .cleared s.race race)
            (queueEvent (.phase .idle false { fault := false, command := false } 0 .abortRace)
              { dropFrame s with race := race, time := time }))) ∧
    (s.race.phase = .results →
      ∃ u, exec (.clearRace true) s = .next (giveReply (.command .clearRace) (.done .none) u) ∧
        u = { s with race := race, time := time, port := u.port } ∧
        (s.race.finish = [] →
          u = queueEvent (.phase .idle false { fault := false, command := false } 0 .clearRace)
            { dropFrame s with race := race, time := time }) ∧
        (s.race.finish ≠ [] →
          u = queueEvent (placingReport .cleared s.race race)
            (queueEvent (.phase .idle false { fault := false, command := false } 0 .clearRace)
              { dropFrame s with race := race, time := time })))

/-- Hold adds COMMAND to the held causes in RUNNING and CLOSING, and race time freezes when the set was empty;
when COMMAND is present already it changes nothing. Resume removes COMMAND; race time runs again from its frozen
value when no cause remains, and while FAULT remains the race stays held and the reply carries the still-held
mark. That the PHASE report stands before the reply is the model's choice (log entry 32), and so is the race
wait remaining of 0 where race time freezes or runs again (log entry 88) (R42, R43, R84, R85). -/
def Obligations.HoldAndResume : Prop :=
  (∀ s, AnchorReady s → (s.race.phase = .running ∨ s.race.phase = .closing) →
     (s.race.causes.command = true →
       exec (.hold true) s = .next (giveReply (.command .hold) (.done .none) (dropFrame s))) ∧
     (s.race.causes.command = false →
       exec (.hold true) s =
         .next (giveReply (.command .hold) (.done .none)
           (queueEvent
             (.phase s.race.phase true { s.race.causes with command := true } s.time.race .hold)
             { dropFrame s with
               race := { s.race with causes := { s.race.causes with command := true } },
               time := if s.race.causes.fault = true then s.time
                 else { s.time with raceStatus := .frozen .held, raceWait := 0 } })))) ∧
  (∀ s, AnchorReady s → (s.race.phase = .running ∨ s.race.phase = .closing) →
     s.race.causes.command = true →
     (s.race.causes.fault = true →
       exec (.resume true) s =
         .next (giveReply (.command .resume) (.done .stillHeld)
           (queueEvent (.phase s.race.phase true { fault := true, command := false } s.time.race .resume)
             { dropFrame s with
               race := { s.race with causes := { fault := true, command := false } } }))) ∧
     (s.race.causes.fault = false →
       exec (.resume true) s =
         .next (giveReply (.command .resume) (.done .none)
           (queueEvent (.phase s.race.phase false { fault := false, command := false } s.time.race .resume)
             { dropFrame s with
               race := { s.race with causes := { fault := false, command := false } },
               time := { s.time with
                 raceStatus := if s.time.race.toNat = 4294967295 then .frozen .top else .counting,
                 raceWait := 0 } }))))

/-- A race setup write in IDLE and a grid write in IDLE or GATHERING, each by its own command or by a local
Table Write that names its table, store each value, clamped into its entry's range, at consecutive entries from
the start index, wrapping; a local settings write stores each value at the next entry that is not read-only.
Every other entry stays, and the reply carries the values as stored. A Table Write that names the race setup or
the grid is refused with ROLE or PHASE as that table's own write is. No value or too many, and an unknown table,
are MALFORMED. The reply data of a grid write are the model's inference (log entry 68), and so are MALFORMED for
a grid write's count and for an unknown table (log entry 37) and that a count out of its range is MALFORMED
before the tests of R79 (log entry 11) (R88, R89, R90, R172, R173). -/
def Obligations.TableWritesStore : Prop :=
  (∀ s start (values : List Nat), AnchorReady s → 1 ≤ values.length →
     (s.race.phase = .idle → values.length ≤ 9 → s.race.setup.length = 9 →
       ∃ table vs,
         (∀ c k, (c = .raceSetupWrite true start values ∧ k = .raceSetupWrite) ∨
             (c = .tableWrite true .raceSetup start values ∧ k = .tableWrite) →
           exec c s = .next (giveReply (.command k) (.done (.values vs))
             { dropFrame s with race := { s.race with setup := table } })) ∧
         table.length = 9 ∧ vs.length = values.length ∧
         (∀ k < values.length, table.getD ((start + k) % 9) 0 =
             min (setupRange ((start + k) % 9)).2 (max (setupRange ((start + k) % 9)).1 (values.getD k 0)) ∧
           vs.getD k 0 = table.getD ((start + k) % 9) 0) ∧
         ∀ i < 9, (∀ k < values.length, (start + k) % 9 ≠ i) → table.getD i 0 = s.race.setup.getD i 0) ∧
     ((s.race.phase = .idle ∨ s.race.phase = .gathering) → values.length ≤ 30 → s.race.grid.length = 30 →
       ∃ table vs,
         (∀ c k, (c = .gridWrite true start values ∧ k = .gridWrite) ∨
             (c = .tableWrite true .grid start values ∧ k = .tableWrite) →
           exec c s = .next (giveReply (.command k) (.done (.values vs))
             { dropFrame s with race := { s.race with grid := table } })) ∧
         table.length = 30 ∧ vs.length = values.length ∧
         (∀ k < values.length, table.getD ((start + k) % 30) 0 = min 8 (values.getD k 0) ∧
           vs.getD k 0 = table.getD ((start + k) % 30) 0) ∧
         ∀ i < 30, (∀ k < values.length, (start + k) % 30 ≠ i) → table.getD i 0 = s.race.grid.getD i 0)) ∧
  (∀ s start (values : List Nat), CommandReady s →
     (values.length < 1 ∨ 9 < values.length →
       Refused .raceSetupWrite (.raceSetupWrite true start values) .malformed s ∧
         Refused .tableWrite (.tableWrite true .raceSetup start values) .malformed s) ∧
     (values.length < 1 ∨ 30 < values.length →
       Refused .gridWrite (.gridWrite true start values) .malformed s ∧
         Refused .tableWrite (.tableWrite true .grid start values) .malformed s) ∧
     (values.length < 1 ∨ 12 < values.length →
       Refused .tableWrite (.tableWrite true .settings start values) .malformed s) ∧
     (∀ n, Refused .tableWrite (.tableWrite true (.unknown n) start values) .malformed s) ∧
     (1 ≤ values.length → values.length ≤ 9 →
       (actingAnchor s = false → Refused .tableWrite (.tableWrite true .raceSetup start values) .role s) ∧
       (actingAnchor s = true → s.race.phase ≠ .idle →
         Refused .tableWrite (.tableWrite true .raceSetup start values) .phase s)) ∧
     (1 ≤ values.length → values.length ≤ 30 →
       (actingAnchor s = false → Refused .tableWrite (.tableWrite true .grid start values) .role s) ∧
       (actingAnchor s = true → s.race.phase ≠ .idle → s.race.phase ≠ .gathering →
         Refused .tableWrite (.tableWrite true .grid start values) .phase s))) ∧
  (∀ s start (values : List Nat), CommandReady s → 1 ≤ values.length → values.length ≤ 12 →
     s.settings.entries.length = 20 →
     ∃ table places, places =
         (((List.range 20).map fun k => (start + k) % 20).filter fun i => i < 12).take values.length ∧
       exec (.tableWrite true .settings start values) s =
         .next (giveReply (.command .tableWrite)
           (.done (.indexed (places.map fun i => (i, table.getD i 0))))
           { dropFrame s with settings := { s.settings with entries := table } }) ∧
       table.length = 20 ∧ places.length = values.length ∧
       (∀ k < values.length, table.getD (places.getD k 0) 0 =
         min (settingRange (places.getD k 0)).2 (max (settingRange (places.getD k 0)).1 (values.getD k 0))) ∧
       (∀ i < 20, i ∉ places → table.getD i 0 = s.settings.entries.getD i 0) ∧
       ∀ i, 12 ≤ i → table.getD i 0 = s.settings.entries.getD i 0)

/-- Reads of the race setup and grid at an anchor in every ring state and at an UNCONFIGURED station, each by
its own command or by a local Table Read that names its table, and local reads of the settings at every station,
return consecutive entries from the start index, wrapping, and change nothing but the port. At a configured
station that is no anchor the reads of the race setup and the grid are refused with ROLE in either form. A count
of 0 or above the size of the table is refused with MALFORMED in every form; for the race setup and the grid the
reason and its place before ROLE are the model's inferences (log entries 37 and 11) (R89, R90, R173). -/
def Obligations.TableReadsReturnEntries : Prop :=
  (∀ s start count, canTake s = true →
    (count < 1 ∨ 9 < count →
      Refused .raceSetupRead (.raceSetupRead true start count) .malformed s ∧
        Refused .tableRead (.tableRead true .raceSetup start count) .malformed s) ∧
    (count < 1 ∨ 30 < count →
      Refused .gridRead (.gridRead true start count) .malformed s ∧
        Refused .tableRead (.tableRead true .grid start count) .malformed s) ∧
    (count < 1 ∨ 20 < count → Refused .tableRead (.tableRead true .settings start count) .malformed s)) ∧
  ∀ s start count, canTake s = true → 1 ≤ count →
    (anchorRole s = true ∨ configured s = false → count ≤ 9 →
      ∃ vs,
        (∀ c k, (c = .raceSetupRead true start count ∧ k = .raceSetupRead) ∨
            (c = .tableRead true .raceSetup start count ∧ k = .tableRead) →
          exec c s = .next (giveReply (.command k) (.done (.values vs)) (dropFrame s))) ∧
        vs.length = count ∧ ∀ k < count, vs.getD k 0 = s.race.setup.getD ((start + k) % 9) 0) ∧
    (anchorRole s = true ∨ configured s = false → count ≤ 30 →
      ∃ vs,
        (∀ c k, (c = .gridRead true start count ∧ k = .gridRead) ∨
            (c = .tableRead true .grid start count ∧ k = .tableRead) →
          exec c s = .next (giveReply (.command k) (.done (.values vs)) (dropFrame s))) ∧
        vs.length = count ∧ ∀ k < count, vs.getD k 0 = s.race.grid.getD ((start + k) % 30) 0) ∧
    (anchorRole s = false → configured s = true →
      (count ≤ 9 → Refused .raceSetupRead (.raceSetupRead true start count) .role s ∧
        Refused .tableRead (.tableRead true .raceSetup start count) .role s) ∧
      (count ≤ 30 → Refused .gridRead (.gridRead true start count) .role s ∧
        Refused .tableRead (.tableRead true .grid start count) .role s)) ∧
    (count ≤ 20 →
      ∃ vs, exec (.tableRead true .settings start count) s =
          .next (giveReply (.command .tableRead) (.done (.values vs)) (dropFrame s)) ∧
        vs.length = count ∧ ∀ k < count, vs.getD k 0 = s.settings.entries.getD ((start + k) % 20) 0)

/-- A JOIN slot in REFERRED mode that the anchor does not decide at once opens the FREE referral record: it
stays POSTED with the hold mark and its relay count, stands in the held-slot list, and a REFERRAL report OPENED
tells it; with the record not FREE it goes on POSTED without the mark, and at relay count 15 it is answered
UNDELIVERABLE, the count that 15 is raised to being free (log entry 16). Admit gives a PENDING referral a VACANT
car, the one named or the lowest, which becomes ENTERED with the join's owner and tag and no race fields; the
answer waits for its slot or seats the anchor's own seat; a car that is not VACANT is OCCUPIED, no VACANT car is
FULL, and without a PENDING record it is NO REFERRAL. Refuse answers DECLINED REFUSED and the timeout DECLINED
NO ANSWER: of a held slot the record becomes DECIDED and waits for it; the anchor's own seat becomes UNSEATED
and the record FREE; no car changes. The held slot is carried as it is until the record is DECIDED; then it is
answered, leaves the held-slot list, and the record becomes FREE with the report CLOSED. The time left in a
DECIDED record and NO REFERRAL before the car number are the model's inferences (log entries 60 and 69); the
layouts of the payloads and of the report CLOSED, and what a short payload reads as, are its choices (log
entries 17, 63 and 70), and so is a JOIN slot with a hold mark that the held-slot list does not name, which goes
as a fresh JOIN (log entry 50) (R71, R72, R97, R98, R99, R100, R101, R103). -/
def Obligations.ReferralIsDecided : Prop :=
  (∀ s choice, AnchorReady s → s.race.cars.length = 8 →
     (∀ j carrier left, s.race.referral = .pending j carrier left →
       (∀ c < 8, (carAt s c).state = .vacant →
         (choice = .car c ∨ (choice = .any ∧ ∀ b < c, (carAt s b).state ≠ .vacant)) →
         ∃ u, exec (.admitCar true choice) s = .next (giveReply (.command .admitCar) (.done (.car c)) u) ∧
           carAt u c =
             { state := .entered, owner := some { station := j.station, seat := j.seat }, tag := j.tag,
               laps := 0, stamp := 0, crossing := 0, finish := none, reason := none, timer := none } ∧
           (∀ b, b ≠ c → carAt u b = carAt s b) ∧ u.race.phase = s.race.phase ∧
           (∀ p q t, carrier = .slot p q t →
             u.race.referral = .decided j carrier (.accepted c) left ∧ u.seat = s.seat) ∧
           (carrier = .own → u.race.referral = .free ∧
             ∀ w, seatAt s j.seat = .requested w → j.seat < s.seat.seats.length →
               seatAt u j.seat = .seated c w) ∧
           u.time = s.time ∧ u.slots = s.slots ∧ u.survey = s.survey ∧ u.settings = s.settings) ∧
       (∀ c < 8, (carAt s c).state ≠ .vacant → choice = .car c →
         Refused .admitCar (.admitCar true choice) .occupied s) ∧
       ((∀ c < 8, (carAt s c).state ≠ .vacant) → choice = .any →
         Refused .admitCar (.admitCar true choice) .full s)) ∧
     ((∀ j carrier left, s.race.referral ≠ .pending j carrier left) →
       Refused .admitCar (.admitCar true choice) .noReferral s ∧
         Refused .refuse (.refuse true) .noReferral s)) ∧
  (∀ s j carrier left, AnchorReady s → s.race.referral = .pending j carrier left →
     (∀ p q t, carrier = .slot p q t →
       exec (.refuse true) s =
         .next (giveReply (.command .refuse) (.done .none)
           { dropFrame s with
             race := { s.race with referral := .decided j carrier (.declined .refused) left } })) ∧
     (carrier = .own →
       ∃ u, exec (.refuse true) s = .next (giveReply (.command .refuse) (.done .none) u) ∧
         u = { s with race := { s.race with referral := .free }, seat := u.seat, port := u.port } ∧
         ∀ w, seatAt s j.seat = .requested w → seatAt u j.seat = .unseated)) ∧
  (∀ s j carrier left, actingAnchor s = true → s.race.referral = .pending j carrier left →
     (∀ place source tag, carrier = .slot place source tag →
       exec .referralTimeout s =
         .next { elapse left s with
           race := { s.race with referral := .decided j carrier (.declined .noAnswer) 0 } }) ∧
     (carrier = .own →
       ∃ t, exec .referralTimeout s = .next t ∧ t.race = { s.race with referral := .free } ∧
         (t.seat = { s.seat with seats := s.seat.seats.set j.seat (match seatAt s j.seat with
           | .requested _ => .unseated
           | r => r) }) ∧
         t.time = (elapse left s).time ∧ t.slots = s.slots ∧ t.settings = s.settings)) ∧
  ∀ place (syms : List RxSym) (s : State) (m : SlotMsg), parseSlot syms = some (some m) →
    m.answered = false → m.kind = .join → m.dest = address s → m.dest ≠ 15 →
    lists s.survey.map m.source = true → lists s.survey.map m.dest = true →
    let stands := m.hold = true ∧ ∃ h ∈ s.slots.held, h.place = place ∧ h.source = m.source ∧ h.tag = m.tag
    let j := joinOf m.body
    let told (condition : ReferralCondition) (k : JoinRequest) (timeout : Nat) (a : Option JoinAnswer)
        (r : Referral) (u : State) : State :=
      queueEvent (.referral condition k.station k.seat k.tag timeout a)
        { u with race := { u.race with referral := r } }
    (¬ stands → s.race.phase = .gathering → (j.title, j.revision) = signature s → j.station = m.source →
      j.seat ≤ 1 → setup s 2 = 2 →
      (∀ c < 8, (carAt s c).owner ≠ some { station := m.source, seat := j.seat }) →
      (s.race.referral = .free →
        relaySlot place syms s =
          (some { m with hold := true },
            told .opened j (setup s 3 * 1000000) none
              (.pending j (.slot place m.source m.tag) (setup s 3 * 1000000))
              { s with slots := { s.slots with
                held := s.slots.held ++ [{ place := place, source := m.source, tag := m.tag }] } })) ∧
      (s.race.referral ≠ .free → m.relay < 15 →
        relaySlot place syms s = (some { m with hold := false, relay := m.relay + 1 }, s)) ∧
      (s.race.referral ≠ .free → m.relay = 15 →
        ∃ r n, relaySlot place syms s =
          (some { m with relay := r, answered := true, hold := false, outcome := declineCode .undeliverable,
                         len := 0, payload := List.replicate 24 0 },
            { s with freeCount := n }) ∧ r < 16)) ∧
    (stands →
      ((∀ k carrier a left, s.race.referral ≠ .decided k carrier a left) →
        relaySlot place syms s = (some m, s)) ∧
      ∀ k carrier a left, s.race.referral = .decided k carrier a left → m.relay < 15 →
        let answered (code len : Nat) (payload : List Byte) : Slot :=
          some { m with relay := m.relay + 1, answered := true, hold := false, outcome := code, len := len,
                        payload := payload }
        let t := told .closed k 0 (some a) .free
          { s with slots := { s.slots with held := s.slots.held.filter fun h => h.place != place } }
        (∀ c, a = .accepted c →
          relaySlot place syms s = (answered 1 1 (BitVec.ofNat 8 c :: List.replicate 23 0), t)) ∧
        ∀ why, a = .declined why →
          relaySlot place syms s = (answered (declineCode why) 0 (List.replicate 24 0), t))

/-! ## Seats, messages, bulk channels and remote tables -/

/-- A Join at a MAPPED racer makes its seat REQUESTED and queues the JOIN to the anchor with the next tag, or is
refused QUEUE FULL. In every role that takes a Join it is refused SEAT for a seat that the station does not have
or that is not UNSEATED, and then NOT MAPPED at a node that is not MAPPED. A Join at the anchor is processed at
once by R98: outside GATHERING the seat becomes UNSEATED again; a car already owned seats it; FIRST FREE gives
the lowest VACANT car, FIXED the grid's car, and REFERRED opens the referral record with the timeout of the
setup, or is BUSY when the record is not FREE. A JOIN slot at the anchor is answered the same way: DECLINED
MISMATCH for a station that is not the slot's source, a seat above 1 or another signature, NOT GATHERING, the
car owned already, the lowest VACANT car or FULL, the grid's car, NO ENTRY or OCCUPIED; the slots of REFERRED
mode are in ReferralIsDecided. The seat mirror follows the summary: a SEATED seat whose car it does not show
owned by it becomes UNSEATED, and one that is not SEATED takes the lowest car that it shows, with a SEATS report
that names no car; the player tag of a seat taken from UNSEATED is free (log entry 15). The layout of the JOIN
payload, the destination 15 under a map without position 0, what a short payload reads as, and a JOIN slot with
a hold mark that the held-slot list does not name, which goes as a fresh JOIN, are the model's choices (log
entries 17, 48, 63 and 50), and its inference the seat that the queued message keeps (log entry 46) (R57, R58,
R96, R97, R98, R99, R103, R104, R106). -/
def Obligations.JoinASeat : Prop :=
  (∀ s seat (w : List Byte), canTake s = true → role s = .racer → s.cyc.ring = .mapped → seat < seatCount s →
     seatAt s seat = .unseated →
     (s.slots.urgent.length < 4 →
       exec (.join true seat w) s =
         .next (giveReply (.command .join) (.taken (.tag (nextTag s.slots .join)))
           { dropFrame s with
             seat := { s.seat with seats := s.seat.seats.set seat (.requested w) },
             slots := { s.slots with
               urgent := s.slots.urgent ++
                 [{ kind := .join, cls := .urgent, dest := (addrAt (mirrorMap s) 0).getD 15,
                    tag := nextTag s.slots .join, order := s.slots.arrival, seat := seat,
                    payload := joinPayload { station := address s, seat := seat, tag := w,
                                             title := (signature s).1, revision := (signature s).2 } }],
               arrival := s.slots.arrival + 1,
               tagCounter := (nextTag s.slots .join + 1) % 256 } })) ∧
     (4 ≤ s.slots.urgent.length → Refused .join (.join true seat w) .queueFull s)) ∧
  (∀ s seat (w : List Byte), CommandReady s → role s ≠ .observer → s.cyc.ring ≠ .deferred →
     (seatCount s ≤ seat ∨ seatAt s seat ≠ .unseated → Refused .join (.join true seat w) .seat s) ∧
     (seat < seatCount s → seatAt s seat = .unseated → anchorRole s = false → s.cyc.ring ≠ .mapped →
       Refused .join (.join true seat w) .notMapped s)) ∧
  (∀ s seat (w : List Byte), AnchorReady s → seat < seatCount s → seat < s.seat.seats.length →
     s.race.cars.length = 8 → seatAt s seat = .unseated →
     let own : Owner := { station := address s, seat := seat }
     let entered : Car :=
       { state := .entered, owner := some own, tag := w, laps := 0, stamp := 0, crossing := 0,
         finish := none, reason := none, timer := none }
     let asked : JoinRequest :=
       { station := address s, seat := seat, tag := w, title := (signature s).1,
         revision := (signature s).2 }
     let free := ∀ c < 8, (carAt s c).owner ≠ some own
     (setup s 2 ≠ 2 ∨ s.race.referral = .free →
       ∃ u t, exec (.join true seat w) s = .next (giveReply (.command .join) (.taken (.tag t)) u) ∧
         u.slots = { s.slots with tagCounter := (t + 1) % 256 } ∧ u.time = s.time ∧ u.survey = s.survey ∧
         u.settings = s.settings ∧ u.seat = { s.seat with seats := u.seat.seats } ∧
         (s.race.phase ≠ .gathering → seatAt u seat = .unseated ∧ u.race = s.race) ∧
         (s.race.phase = .gathering →
           (∀ c < 8, (carAt s c).owner = some own → (∀ b < c, (carAt s b).owner ≠ some own) →
             (carAt s c).state ≠ .vacant → seatAt u seat = .seated c w ∧ u.race = s.race) ∧
           (free → setup s 2 = 0 → ∀ c < 8, (carAt s c).state = .vacant →
             (∀ b < c, (carAt s b).state ≠ .vacant) →
             seatAt u seat = .seated c w ∧ u.race = { s.race with cars := s.race.cars.set c entered }) ∧
           (free → setup s 2 = 0 → (∀ c < 8, (carAt s c).state ≠ .vacant) →
             seatAt u seat = .unseated ∧ u.race = s.race) ∧
           (free → setup s 2 = 1 →
             let c := s.race.grid.getD (2 * address s + seat) 8
             if c < 8 ∧ (carAt s c).state = .vacant then
               seatAt u seat = .seated c w ∧ u.race = { s.race with cars := s.race.cars.set c entered }
             else seatAt u seat = .unseated ∧ u.race = s.race) ∧
           (free → setup s 2 = 2 →
             seatAt u seat = .requested w ∧
               u.race = { s.race with referral := .pending asked .own (setup s 3 * 1000000) }))) ∧
     (setup s 2 = 2 → s.race.referral ≠ .free → Refused .join (.join true seat w) .busy s)) ∧
  (∀ (l : List CarSummary) seat (s : State), seat < s.seat.seats.length →
     let mirrored (u : State) (r : SeatRecord) : State :=
       queueEvent
         (.seats .mirror (some seat) none none (s.seat.seats.set seat r) s.seat.ready s.seat.attentionPending
           s.seat.attentionCode)
         { u with seat := { s.seat with seats := s.seat.seats.set seat r } }
     ((∀ c < 8, ¬ ShowsSeat l c seat s) →
       (∀ c w, seatAt s seat = .seated c w → l.length = 8 → mirrorSeat l seat s = mirrored s .unseated) ∧
       ((∀ c w, seatAt s seat ≠ .seated c w) → mirrorSeat l seat s = s)) ∧
     ∀ c < 8, ShowsSeat l c seat s → (∀ b < c, ¬ ShowsSeat l b seat s) →
       (∀ w, seatAt s seat = .requested w → mirrorSeat l seat s = mirrored s (.seated c w)) ∧
       (∀ d w, seatAt s seat = .seated d w → ShowsSeat l d seat s → mirrorSeat l seat s = s) ∧
       (seatAt s seat = .unseated ∨ (∃ d w, seatAt s seat = .seated d w ∧ ¬ ShowsSeat l d seat s) →
         ∃ w, w.length = 3 ∧
           mirrorSeat l seat s = mirrored { s with freeCount := s.freeCount + 1 } (.seated c w))) ∧
  ∀ place (syms : List RxSym) (s : State) (m : SlotMsg), parseSlot syms = some (some m) →
    m.answered = false → m.kind = .join → m.dest = address s → lists s.survey.map m.source = true →
    m.relay < 15 → s.race.cars.length = 8 →
    (m.hold = true → ∀ h ∈ s.slots.held, ¬ (h.place = place ∧ h.source = m.source ∧ h.tag = m.tag)) →
    let j := joinOf m.body
    let own : Owner := { station := m.source, seat := j.seat }
    let answered (code len : Nat) (payload : List Byte) : Slot :=
      some { m with relay := m.relay + 1, answered := true, hold := false, outcome := code, len := len,
                    payload := payload }
    let declined (why : Decline) : Slot × State := (answered (declineCode why) 0 (List.replicate 24 0), s)
    let accepted (c : Nat) (u : State) : Slot × State :=
      (answered 1 1 (BitVec.ofNat 8 c :: List.replicate 23 0), u)
    let racer : Car :=
      { state := .entered, owner := some own, tag := j.tag, laps := 0, stamp := 0, crossing := 0,
        finish := none, reason := none, timer := none }
    let entered (c : Nat) : State :=
      { s with race := { s.race with cars := s.race.cars.set c racer } }
    let free := ∀ c < 8, (carAt s c).owner ≠ some own
    (j.station ≠ m.source ∨ 1 < j.seat → relaySlot place syms s = declined .mismatch) ∧
    (j.station = m.source → j.seat ≤ 1 →
      (s.race.phase ≠ .gathering → relaySlot place syms s = declined .notGathering) ∧
      (s.race.phase = .gathering → (j.title, j.revision) ≠ signature s →
        relaySlot place syms s = declined .mismatch) ∧
      (s.race.phase = .gathering → (j.title, j.revision) = signature s →
        (∀ c < 8, (carAt s c).owner = some own → (∀ b < c, (carAt s b).owner ≠ some own) →
          (carAt s c).state ≠ .vacant → relaySlot place syms s = accepted c s) ∧
        (free → setup s 2 = 0 →
          (∀ c < 8, (carAt s c).state = .vacant → (∀ b < c, (carAt s b).state ≠ .vacant) →
            relaySlot place syms s = accepted c (entered c)) ∧
          ((∀ c < 8, (carAt s c).state ≠ .vacant) → relaySlot place syms s = declined .full)) ∧
        (free → setup s 2 = 1 →
          let c := s.race.grid.getD (2 * m.source + j.seat) 8
          (8 ≤ c → relaySlot place syms s = declined .noEntry) ∧
          (c < 8 → (carAt s c).state = .vacant → relaySlot place syms s = accepted c (entered c)) ∧
          (c < 8 → (carAt s c).state ≠ .vacant → relaySlot place syms s = declined .occupied))))

/-- A Leave at a MAPPED racer whose seat is SEATED queues the LEAVE and changes no seat; it is BUSY while one is
pending and QUEUE FULL without room. In every role that takes a Leave it is refused SEAT for a seat that the
station does not have or that is not SEATED, then BUSY, and then NOT MAPPED at a node that is not MAPPED. A
Leave at the anchor, and a LEAVE slot that reaches it, are processed at once by R105's table: an ENTERED car
becomes VACANT, a RACING car RETIRED with the reason WITHDRAWN, which gives a PLACING report of the cause
RETIREMENT and, when it was the last, the PHASE report of the race's end behind it, in the model's order (log
entry 32); behind them the anchor's own Leave gives the SEATS report of its outcome; any other stays. The slot
is answered with the car and its state after, car 8 for none, or DECLINED MISMATCH for a station that is not its
source or a seat above 1. That the anchor's own reply is TAKEN without a tag and that the queued message keeps
the seat are the model's inferences (log entries 45 and 46); the payload layouts, the destination 15 under a map
without position 0 and what a short payload reads as are its choices (log entries 17, 48 and 63) (R57, R58, R69,
R92, R105, R149). -/
def Obligations.LeaveASeat : Prop :=
  (∀ s seat c (w : List Byte), canTake s = true → role s = .racer → s.cyc.ring = .mapped → seat < seatCount s →
     seatAt s seat = .seated c w →
     (leavePending s seat = false → s.slots.urgent.length < 4 →
       exec (.leave true seat) s =
         .next (giveReply (.command .leave) (.taken (.tag (nextTag s.slots .leave)))
           { dropFrame s with
             slots := { s.slots with
               urgent := s.slots.urgent ++
                 [{ kind := .leave, cls := .urgent, dest := (addrAt (mirrorMap s) 0).getD 15,
                    tag := nextTag s.slots .leave, order := s.slots.arrival, seat := seat,
                    payload := [BitVec.ofNat 8 (address s), BitVec.ofNat 8 seat] }],
               arrival := s.slots.arrival + 1,
               tagCounter := (nextTag s.slots .leave + 1) % 256 } })) ∧
     (leavePending s seat = true → Refused .leave (.leave true seat) .busy s) ∧
     (leavePending s seat = false → 4 ≤ s.slots.urgent.length →
       Refused .leave (.leave true seat) .queueFull s)) ∧
  (∀ s seat, CommandReady s → role s ≠ .observer → s.cyc.ring ≠ .deferred →
     (seatCount s ≤ seat ∨ (∀ c w, seatAt s seat ≠ .seated c w) → Refused .leave (.leave true seat) .seat s) ∧
     ∀ c w, seat < seatCount s → seatAt s seat = .seated c w →
       (leavePending s seat = true → Refused .leave (.leave true seat) .busy s) ∧
       (leavePending s seat = false → anchorRole s = false → s.cyc.ring ≠ .mapped →
         Refused .leave (.leave true seat) .notMapped s)) ∧
  (∀ s seat k (w : List Byte), AnchorReady s → seat < seatCount s → seatAt s seat = .seated k w →
     leavePending s seat = false → s.race.cars.length = 8 →
     let own : Owner := { station := address s, seat := seat }
     let told (c : Nat) (k : CarState) (v : State) : State :=
       queueEvent
         (.seats .leaveOutcome (some seat)
           (some (.accepted [BitVec.ofNat 8 c, BitVec.ofNat 8 (carStateCode k)]))
           (if c < 8 then some c else none) s.seat.seats s.seat.ready s.seat.attentionPending
           s.seat.attentionCode) v
     ∃ u, exec (.leave true seat) s = .next (giveReply (.command .leave) (.taken .none) u) ∧
       u.seat = s.seat ∧ u.slots = s.slots ∧ u.survey = s.survey ∧ u.settings = s.settings ∧
       ((∀ c < 8, (carAt s c).owner ≠ some own) →
         u.race = s.race ∧ u.time = s.time ∧ u.port = (told 8 .vacant (dropFrame s)).port) ∧
       ∀ c < 8, (carAt s c).owner = some own → (∀ b < c, (carAt s b).owner ≠ some own) →
         (∀ b, b ≠ c → carAt u b = carAt s b) ∧
         (if s.race.phase ≠ .results ∧ (carAt s c).state = .entered then
           carAt u c = Car.vacant ∧ u.race.phase = s.race.phase ∧ u.time = s.time ∧
             u.port = (told c .vacant (dropFrame s)).port
         else if s.race.phase ≠ .results ∧ (carAt s c).state = .racing then
           carAt u c = { carAt s c with state := .retired, reason := some .withdrawn, timer := none } ∧
             u.port = (told c .retired (retirementReports u (dropFrame s))).port
         else
           u.race = s.race ∧ u.time = s.time ∧
             u.port = (told c (carAt s c).state (dropFrame s)).port)) ∧
  ∀ place (syms : List RxSym) (s : State) (m : SlotMsg), parseSlot syms = some (some m) →
    m.answered = false → m.kind = .leave → m.dest = address s → lists s.survey.map m.source = true →
    m.relay < 15 → s.race.cars.length = 8 →
    let seat := byteAt m.body 1
    let own : Owner := { station := m.source, seat := seat }
    let answered (code len : Nat) (payload : List Byte) : Slot :=
      some { m with relay := m.relay + 1, answered := true, hold := false, outcome := code, len := len,
                    payload := payload }
    let accepted (c : Nat) (k : CarState) : Slot :=
      answered 1 2 (BitVec.ofNat 8 c :: BitVec.ofNat 8 (carStateCode k) :: List.replicate 22 0)
    (byteAt m.body 0 ≠ m.source ∨ 1 < seat →
      relaySlot place syms s = (answered (declineCode .mismatch) 0 (List.replicate 24 0), s)) ∧
    (byteAt m.body 0 = m.source → seat ≤ 1 →
      ((∀ c < 8, (carAt s c).owner ≠ some own) → relaySlot place syms s = (accepted 8 .vacant, s)) ∧
      ∀ c < 8, (carAt s c).owner = some own → (∀ b < c, (carAt s b).owner ≠ some own) →
        (s.race.phase ≠ .results → (carAt s c).state = .entered →
          relaySlot place syms s =
            (accepted c .vacant, { s with race := { s.race with cars := s.race.cars.set c Car.vacant } })) ∧
        (s.race.phase ≠ .results → (carAt s c).state = .racing →
          ∃ t, relaySlot place syms s = (accepted c .retired, t) ∧
            carAt t c = { carAt s c with state := .retired, reason := some .withdrawn, timer := none } ∧
            (∀ b, b ≠ c → carAt t b = carAt s b) ∧ t.port = (retirementReports t s).port ∧ t.seat = s.seat ∧
            t.slots = s.slots ∧ t.survey = s.survey ∧ t.settings = s.settings) ∧
        (s.race.phase = .results ∨ ((carAt s c).state ≠ .entered ∧ (carAt s c).state ≠ .racing) →
          relaySlot place syms s = (accepted c (carAt s c).state, s)))

/-- Set Ready sets the Ready flag, MALFORMED above 1; Request Attention makes the request pending with its code,
MALFORMED above 127; Withdraw Attention ends it and keeps the code; Car Report stores the own-report record of
its seat, saturated, with the field latch or both times as its stamps, and is SEAT at or above the seat count.
Nothing else changes (R107, R109, R113, R114, R115). -/
def Obligations.SeatUnitCommands : Prop :=
  ∀ s, CommandReady s →
    (∀ v, v ≤ 1 →
      exec (.setReady true v) s =
        .next (giveReply (.command .setReady) (.done .none)
          { dropFrame s with seat := { s.seat with ready := v == 1 } })) ∧
    (∀ v, 1 < v → Refused .setReady (.setReady true v) .malformed s) ∧
    (∀ code, code ≤ 127 →
      exec (.requestAttention true code) s =
        .next (giveReply (.command .requestAttention) (.done .none)
          { dropFrame s with
            seat := { s.seat with attentionPending := true, attentionCode := code } })) ∧
    (∀ code, 127 < code → Refused .requestAttention (.requestAttention true code) .malformed s) ∧
    exec (.withdrawAttention true) s =
      .next (giveReply (.command .withdrawAttention) (.done .none)
        { dropFrame s with seat := { s.seat with attentionPending := false } }) ∧
    (∀ seat (a : CarReportArgs), seat < seatCount s →
      ∃ d, exec (.carReport true seat a) s =
          .next (giveReply (.command .carReport) (.done .none)
            { dropFrame s with seat := { s.seat with own := s.seat.own.set seat (some d) } }) ∧
        d.x = min 8388607 (max (-8388608) a.x) ∧ d.y = min 8388607 (max (-8388608) a.y) ∧
        d.z = min 8388607 (max (-8388608) a.z) ∧ d.vx = min 262143 (max (-262144) a.vx) ∧
        d.vy = min 262143 (max (-262144) a.vy) ∧ d.vz = min 262143 (max (-262144) a.vz) ∧
        d.heading = a.heading ∧ d.yaw = a.yaw ∧ d.laps = a.laps ∧ d.crossing = a.crossing ∧
        d.appearance = a.appearance ∧
        (∀ f g, s.time.latch = some (f, g) → d.linkStamp = f ∧ d.raceStamp = g) ∧
        (s.time.latch = none → d.linkStamp = s.time.link ∧ d.raceStamp = s.time.race)) ∧
    ∀ seat (a : CarReportArgs), seatCount s ≤ seat → Refused .carReport (.carReport true seat a) .seat s

/-- A Poll, a Clear Stations, a remote Table Write or Table Read and a Game each queue their message at the tail
of its class's queue with the next arrival order and, but for Game, the next tag, which no message of the kind
carries; each is QUEUE FULL when that queue has no room. SELF for the station's own address, then MALFORMED for
an address above 14 of a Poll or remote command, for an unknown table or a count outside its range, and for a
Game of a destination above 15, more than 24 bytes or no known class. A Game is NOT MAPPED at a station whose
ring state lets it post nothing, and BUSY for a tag in use. An OBSERVER and an anchor in DEFERRED refuse Game,
Join, Leave and Bulk Open with ROLE. The payload layouts of the table messages are the model's choice (log entry
17) (R57, R58, R96, R105, R111, R112, R152, R171, R174). -/
def Obligations.MessagesJoinTheirQueue : Prop :=
  (∀ (e : SlotEngine) k, e.urgent.length + e.normal.length + e.outstanding.length < 256 →
    tagInUse e k (nextTag e k) = false) ∧
  (∀ s, AnchorReady s → s.slots.urgent.length < 4 →
    let posted (k : MsgKind) (dest : Nat) (payload : List Byte) : State :=
      { dropFrame s with
        slots := { s.slots with
          urgent := s.slots.urgent ++
            [{ kind := k, cls := .urgent, dest := dest, tag := nextTag s.slots k, payload := payload,
               order := s.slots.arrival, seat := 0 }],
          arrival := s.slots.arrival + 1, tagCounter := (nextTag s.slots k + 1) % 256 } }
    (∀ a ≤ 14, a ≠ address s →
      exec (.poll true a) s =
          .next (giveReply (.command .poll) (.taken (.tag (nextTag s.slots .poll))) (posted .poll a [])) ∧
        (∀ table start (values : List Nat), table = .settings ∨ table = .raceSetup ∨ table = .grid →
          1 ≤ values.length → values.length ≤ 10 →
          exec (.remoteTableWrite true a table start values) s =
            .next (giveReply (.command .remoteTableWrite) (.taken (.tag (nextTag s.slots .tableWrite)))
              (posted .tableWrite a (tableWritePayload table start values)))) ∧
        (∀ table start count, table = .settings ∨ table = .raceSetup ∨ table = .grid →
          1 ≤ count → count ≤ 20 →
          exec (.remoteTableRead true a table start count) s =
            .next (giveReply (.command .remoteTableRead) (.taken (.tag (nextTag s.slots .tableRead)))
              (posted .tableRead a (tableReadPayload table start count))))) ∧
    (s.race.phase = .idle →
      exec (.clearStations true) s =
        .next (giveReply (.command .clearStations) (.taken (.tag (nextTag s.slots .clearStations)))
          (posted .clearStations 15 [])))) ∧
  (∀ s, AnchorReady s →
    let refused (a : Nat) (r : RefusalReason) : Prop :=
      Refused .poll (.poll true a) r s ∧
        (∀ table start (values : List Nat),
          Refused .remoteTableWrite (.remoteTableWrite true a table start values) r s) ∧
        ∀ table start count, Refused .remoteTableRead (.remoteTableRead true a table start count) r s
    let known (table : TableName) : Prop := table = .settings ∨ table = .raceSetup ∨ table = .grid
    refused (address s) .self ∧ (∀ a, 14 < a → a ≠ address s → refused a .malformed) ∧
    ∀ a ≤ 14, a ≠ address s →
      (∀ table start (values : List Nat), ¬ known table ∨ values.length < 1 ∨ 10 < values.length →
        Refused .remoteTableWrite (.remoteTableWrite true a table start values) .malformed s) ∧
      (∀ table start count, ¬ known table ∨ count < 1 ∨ 20 < count →
        Refused .remoteTableRead (.remoteTableRead true a table start count) .malformed s) ∧
      (4 ≤ s.slots.urgent.length →
        Refused .poll (.poll true a) .queueFull s ∧
        (s.race.phase = .idle → Refused .clearStations (.clearStations true) .queueFull s) ∧
        (∀ table start (values : List Nat), known table → 1 ≤ values.length → values.length ≤ 10 →
          Refused .remoteTableWrite (.remoteTableWrite true a table start values) .queueFull s) ∧
        ∀ table start count, known table → 1 ≤ count → count ≤ 20 →
          Refused .remoteTableRead (.remoteTableRead true a table start count) .queueFull s)) ∧
  (∀ s, CommandReady s →
    (role s = .observer ∨ s.cyc.ring = .deferred →
      (∀ dest cls tag (p : List Byte), Refused .game (.game true dest cls tag p) .role s) ∧
      (∀ seat (w : List Byte), Refused .join (.join true seat w) .role s) ∧
      (∀ seat, Refused .leave (.leave true seat) .role s) ∧
      ∀ ch peer total optEnd optEach,
        Refused .bulkOpen (.bulkOpen true ch peer total optEnd optEach) .role s) ∧
    (role s ≠ .observer → s.cyc.ring ≠ .deferred → ∀ dest cls tag (p : List Byte),
      (dest = address s → Refused .game (.game true dest cls tag p) .self s) ∧
      (dest ≠ address s → 15 < dest ∨ 24 < p.length ∨ cls = none →
        Refused .game (.game true dest cls tag p) .malformed s))) ∧
  ∀ s dest tag (p : List Byte), CommandReady s → role s ≠ .observer → s.cyc.ring ≠ .deferred →
    dest ≤ 15 → dest ≠ address s → p.length ≤ 24 →
    (ringReady s = false → ∀ cls, Refused .game (.game true dest (some cls) tag p) .notMapped s) ∧
    (ringReady s = true →
      (tagInUse s.slots .game tag = true →
        ∀ cls, Refused .game (.game true dest (some cls) tag p) .busy s) ∧
      (tagInUse s.slots .game tag = false →
        let m (cls : MsgClass) : QueuedMsg :=
          { kind := .game, cls := cls, dest := dest, tag := tag, payload := p, order := s.slots.arrival,
            seat := 0 }
        (s.slots.urgent.length < 4 →
          exec (.game true dest (some .urgent) tag p) s =
            .next (giveReply (.command .game) (.taken (.tag tag))
              { dropFrame s with slots := { s.slots with
                urgent := s.slots.urgent ++ [m .urgent], arrival := s.slots.arrival + 1 } })) ∧
        (s.slots.normal.length < 8 →
          exec (.game true dest (some .normal) tag p) s =
            .next (giveReply (.command .game) (.taken (.tag tag))
              { dropFrame s with slots := { s.slots with
                normal := s.slots.normal ++ [m .normal], arrival := s.slots.arrival + 1 } })) ∧
        (4 ≤ s.slots.urgent.length →
          Refused .game (.game true dest (some .urgent) tag p) .queueFull s) ∧
        (8 ≤ s.slots.normal.length →
          Refused .game (.game true dest (some .normal) tag p) .queueFull s)))

/-- Bulk Open makes the channel ACTIVE with the peer, the length and the options, BUSY while it is ACTIVE. Bulk
Data appends to the buffer, makes a segment ready when it holds a full one, and is LENGTH or FULL otherwise.
Bulk Abort fails the channel at once when nothing was posted, else empties the buffer and makes a BULK ABORT
ready when nothing is outstanding, and has no effect on a channel that is not ACTIVE. A channel number other
than 1 and 2 is MALFORMED in all three, and so are a peer of 15 or above and a length of 0 of a Bulk Open and a
Bulk Data without a byte; a Bulk Open to the station itself is SELF, and one at a station whose ring state lets
it post nothing NOT MAPPED. That the BULK FAILED report stands before the reply is the model's choice (log entry
32) (R151, R152, R153, R154, R156). -/
def Obligations.BulkCommandsMoveTheChannel : Prop :=
  (∀ s ch, CommandReady s →
    let known : Prop := ch = 1 ∨ ch = 2
    (role s ≠ .observer → s.cyc.ring ≠ .deferred → ∀ peer total optEnd optEach,
      (¬ known ∨ 14 < peer ∨ total = 0 →
        Refused .bulkOpen (.bulkOpen true ch peer total optEnd optEach) .malformed s) ∧
      (known → peer ≤ 14 → 0 < total →
        (peer = address s → Refused .bulkOpen (.bulkOpen true ch peer total optEnd optEach) .self s) ∧
        (peer ≠ address s → ringReady s = false →
          Refused .bulkOpen (.bulkOpen true ch peer total optEnd optEach) .notMapped s))) ∧
    (∀ data, ¬ known ∨ data = [] → Refused .bulkData (.bulkData true ch data) .malformed s) ∧
    (¬ known → Refused .bulkAbort (.bulkAbort true ch) .malformed s)) ∧
  ∀ s ch, canTake s = true → configured s = true → (ch = 1 ∨ ch = 2) → s.bulk.send.length = 2 →
    let c := chanAt s ch
    let setTo (x : SendChannel) : List SendChannel := s.bulk.send.set (ch - 1) x
    (∀ peer total optEnd optEach, role s ≠ .observer → s.cyc.ring ≠ .deferred → ringReady s = true →
      peer < 15 → peer ≠ address s → 0 < total →
      (c.state ≠ .active →
        exec (.bulkOpen true ch peer total optEnd optEach) s =
          .next (giveReply (.command .bulkOpen) (.done .none)
            { dropFrame s with
              bulk := { s.bulk with send := setTo (SendChannel.mk .active false peer total total 0 0 [] none
                optEnd optEach none) } })) ∧
      (c.state = .active →
        Refused .bulkOpen (.bulkOpen true ch peer total optEnd optEach) .busy s)) ∧
    (∀ data : List Byte, data ≠ [] →
      (c.state = .active → c.abortPending = false → c.buffer.length + data.length ≤ 256 →
        c.supplied + data.length ≤ c.total →
        let full := c.ready = none ∧ c.out = none ∧ min 20 c.remaining ≤ c.buffer.length + data.length
        exec (.bulkData true ch data) s =
          .next (giveReply (.command .bulkData)
            (.done (.bulk (c.buffer.length + data.length) (c.total - (c.supplied + data.length))))
            { dropFrame s with
              bulk := { s.bulk with send := setTo { c with
                         buffer := c.buffer ++ data, supplied := c.supplied + data.length,
                         ready := if full then some s.slots.arrival else c.ready } },
              slots := { s.slots with
                arrival := if full then s.slots.arrival + 1 else s.slots.arrival } })) ∧
      (c.state ≠ .active ∨ c.abortPending = true →
        Refused .bulkData (.bulkData true ch data) .length s) ∧
      (c.state = .active → c.abortPending = false → 256 < c.buffer.length + data.length →
        Refused .bulkData (.bulkData true ch data) .full s) ∧
      (c.state = .active → c.abortPending = false → c.buffer.length + data.length ≤ 256 →
        c.total < c.supplied + data.length → Refused .bulkData (.bulkData true ch data) .length s)) ∧
    (c.state = .active → c.abortPending = false →
      (c.nextSeq = 0 → c.out = none →
        exec (.bulkAbort true ch) s =
          .next (giveReply (.command .bulkAbort) (.done .none)
            (queueEvent (.bulkFailedSend ch c.peer .aborted (c.total - c.remaining) c.remaining)
              { dropFrame s with
                bulk := { s.bulk with send := setTo { c with
                  state := .failed .aborted, abortPending := false, buffer := [], out := none,
                  ready := none } } }))) ∧
      (c.nextSeq ≠ 0 ∨ c.out ≠ none →
        exec (.bulkAbort true ch) s =
          .next (giveReply (.command .bulkAbort) (.done .none)
            { dropFrame s with
              bulk := { s.bulk with send := setTo { c with
                         abortPending := true, buffer := [],
                         ready := if c.out = none then some s.slots.arrival else none } },
              slots := { s.slots with
                arrival := if c.out = none then s.slots.arrival + 1 else s.slots.arrival } }))) ∧
    (c.state ≠ .active ∨ c.abortPending = true →
      exec (.bulkAbort true ch) s = .next (giveReply (.command .bulkAbort) (.done .none) (dropFrame s)))

/-- A TABLE WRITE or TABLE READ from a station that is not the anchor is UNDELIVERABLE; one for the race setup
or grid is LOCAL ONLY; one for an unknown table or with a count outside its range is NO ENTRY. A write of the
settings that reaches a protected entry is PROTECTED and writes nothing; any other stores each value, clamped,
at the next entries that are not read-only and answers them as stored. A read of the settings answers the
entries from the start index, wrapping, at most 11, and changes nothing. The payload layout, and NO ENTRY for a
write of another length than its count tells, are the model's choice (log entry 17) (R69, R172, R173, R174,
R175). -/
def Obligations.RemoteWriteIsAnswered : Prop :=
  (∀ s (m : SlotMsg) start (values : List Nat), m.kind = .tableWrite → s.settings.entries.length = 20 →
    start < 256 → 1 ≤ values.length → values.length ≤ 10 → (∀ v ∈ values, v < 65536) →
    let places :=
      (((List.range 20).map fun k => (start + k) % 20).filter fun i => i < 12).take values.length
    (mirrorAnchor s ≠ some m.source → serveSlot m s = (s, some (.declined .undeliverable))) ∧
    (mirrorAnchor s = some m.source →
      (m.body = tableWritePayload .raceSetup start values ∨ m.body = tableWritePayload .grid start values →
        serveSlot m s = (s, some (.declined .localOnly))) ∧
      (m.body = tableWritePayload .settings start values →
        ((∃ i ∈ places, protectedGroup s.settings (settingGroup i) = true) →
          serveSlot m s = (s, some (.declined .prot))) ∧
        ((∀ i ∈ places, protectedGroup s.settings (settingGroup i) = false) →
          ∃ table, serveSlot m s =
              ({ s with settings := { s.settings with entries := table } },
                some (.accepted (places.flatMap fun i => beBytes 2 (table.getD i 0)))) ∧
            (∀ k < values.length, table.getD (places.getD k 0) 0 =
              min (settingRange (places.getD k 0)).2
                (max (settingRange (places.getD k 0)).1 (values.getD k 0))) ∧
            ∀ i, i ∉ places → table.getD i 0 = s.settings.entries.getD i 0)))) ∧
  (∀ s (m : SlotMsg), m.kind = .tableWrite ∨ m.kind = .tableRead →
    let count := byteAt m.body 2
    (mirrorAnchor s ≠ some m.source → serveSlot m s = (s, some (.declined .undeliverable))) ∧
    (mirrorAnchor s = some m.source →
      (byteAt m.body 0 = 1 ∨ byteAt m.body 0 = 2 → serveSlot m s = (s, some (.declined .localOnly))) ∧
      (2 < byteAt m.body 0 → serveSlot m s = (s, some (.declined .noEntry))) ∧
      (byteAt m.body 0 = 0 → m.kind = .tableWrite →
        count < 1 ∨ 10 < count ∨ m.body.length ≠ 3 + 2 * count →
        serveSlot m s = (s, some (.declined .noEntry))) ∧
      (byteAt m.body 0 = 0 → m.kind = .tableRead → count < 1 ∨ 20 < count →
        serveSlot m s = (s, some (.declined .noEntry))))) ∧
  ∀ s (m : SlotMsg) start count, m.kind = .tableRead → mirrorAnchor s = some m.source → start < 256 →
    1 ≤ count → count ≤ 20 → m.body = tableReadPayload .settings start count →
    serveSlot m s =
      (s, some (.accepted ((List.range (min 11 count)).flatMap fun k =>
        beBytes 2 (s.settings.entries.getD ((start + k) % 20) 0))))

/-! ## The race and the arithmetic -/

/-- A block of a RACING car with its number, its owner and a later race stamp gives the car the greater lap
count, the crossing clamped between its last stamp and the block's own, the block's stamp and a new timer; at
the lap total the car is FINISHED and enters the finish list at its place by time and car number, the deadline
following another head of the list and taken at once, the RACING cars becoming UNPLACED, when it then stands
reached. The reports are PHASE of the first finisher, PLACING of the cause FINISH, PLACING of the cause DEADLINE
when it is taken, and PHASE of the race's end when no car is RACING; a block that finishes no car but confirms
entries gives PLACING of the cause CONFIRM. Their order is the model's choice (log entry 32), and that a
deadline standing reached is taken behind the block its inference (log entry 34). Any other block changes
nothing. The replica store is set by the summary: an entry is cleared for a VACANT car, an own car and a new
owner, becomes GONE for a RETIRED or UNPLACED car, and is cleared when a GONE car runs again; a fresh mapping
sets the release marks; a block of another station's car in the race is taken when it is later, released or the
first, with an APPEARANCE report when the entry is new or its appearance changes (R93, R119, R120, R121, R123,
R139, R140, R141, R142, R143, R145, R149). -/
def Obligations.ReturnedBlockIsRead : Prop :=
  (∀ c syms s, s.race.cars.length = 8 → c < 8 →
    (parseBlock syms = none → readBlock c syms s = s) ∧
    ∀ b, parseBlock syms = some b →
      let k := carAt s c
      let read := b.valid = true ∧ b.car = c ∧ b.station < 15 ∧ k.state = .racing ∧
        k.owner = some { station := b.station, seat := b.seat }
      let laps := max b.data.laps k.laps
      let crossing : Micros :=
        if b.data.crossing.toNat < k.stamp.toNat then k.stamp
        else if b.data.raceStamp.toNat < b.data.crossing.toNat then b.data.raceStamp
        else b.data.crossing
      (¬ read ∨ b.data.raceStamp.toNat ≤ k.stamp.toNat → readBlock c syms s = s) ∧
      (read → k.stamp.toNat < b.data.raceStamp.toNat → laps < setup s 0 →
        carAt (readBlock c syms s) c =
            { k with laps := laps, crossing := if k.laps < laps then crossing else k.crossing,
                     stamp := b.data.raceStamp, timer := some s.time.race } ∧
          (∀ d, d ≠ c → carAt (readBlock c syms s) d = carAt s d) ∧
          (readBlock c syms s).race.phase = s.race.phase ∧ (readBlock c syms s).time = s.time ∧
          (readBlock c syms s).race.finish.map FinishEntry.car = s.race.finish.map FinishEntry.car ∧
          (readBlock c syms s).port =
            (if (readBlock c syms s).race.finish = s.race.finish then s
             else queueEvent (placingReport .confirm s.race (readBlock c syms s).race) s).port) ∧
      (read → k.stamp.toNat < b.data.raceStamp.toNat → setup s 0 ≤ laps →
        (s.race.phase = .running ∨ s.race.phase = .closing) →
        (carAt (readBlock c syms s) c).state = .finished ∧
          (carAt (readBlock c syms s) c).finish = some crossing ∧
          (carAt (readBlock c syms s) c).laps = laps ∧
          (carAt (readBlock c syms s) c).stamp = b.data.raceStamp ∧
          (carAt (readBlock c syms s) c).timer = none ∧
          ((readBlock c syms s).race.phase = .closing ∨ (readBlock c syms s).race.phase = .results) ∧
          (∃ front back, s.race.finish.map (fun e => (e.car, e.time)) = front ++ back ∧
            (readBlock c syms s).race.finish.map (fun e => (e.car, e.time)) =
              front ++ (c, crossing) :: back ∧
            (∀ e ∈ front, e.2.toNat < crossing.toNat ∨ (e.2.toNat = crossing.toNat ∧ e.1 < c)) ∧
            ∀ e ∈ back.head?, crossing.toNat < e.2.toNat ∨ (e.2.toNat = crossing.toNat ∧ c ≤ e.1)) ∧
          (let v := readBlock c syms s
           let others : Prop := ∃ b, b ≠ c ∧ (carAt s b).state = .racing
           let mid : RaceControl :=
             confirmList
               { s.race with
                 cars := s.race.cars.set c (carAt v c),
                 finish := insertFinish { car := c, time := crossing, confirmed := false } s.race.finish }
           let begun :=
             if s.race.phase = .running then
               queueEvent
                 (.phase .closing (anyCause s.race.causes) s.race.causes s.time.race .finish) s
             else s
           let finished := queueEvent (placingReport .finish s.race mid) begun
           (∀ e, v.race.finish.head? = some e →
             v.race.deadline =
               if s.race.finish.head?.map FinishEntry.car = some e.car then s.race.deadline
               else some (BitVec.ofNat 32 (min 4294967295 (e.time.toNat + setup s 1 * 1000000)))) ∧
           (¬ others →
             v.race.phase = .results ∧ v.port = (queueEvent (raceEndReport s.time.race) finished).port) ∧
           (others →
             (v.race.phase = .results ↔
               ∃ dl, v.race.deadline = some dl ∧ dl.toNat ≤ s.time.race.toNat) ∧
             (v.race.phase = .closing →
               v.race.finish = mid.finish ∧ v.race.cars = mid.cars ∧ v.port = finished.port) ∧
             (v.race.phase = .results →
               v.port =
                 (queueEvent (raceEndReport s.time.race)
                   (queueEvent (placingReport .deadline mid v.race) finished)).port))))) ∧
  (∀ (l : List CarSummary) c (s : State), s.replica.length = 8 → c < 8 →
     let k := summaryAt l c
     let e := entryAt s c
     let cleared : State :=
       { s with
         replica := s.replica.set c { fresh := .none, owner := none, data := none, release := false,
                                      pres := none },
         time := { s.time with computation :=
           s.time.computation.map fun f => { f with live := f.live.set c false } } }
     let other := e.fresh ≠ .none ∧ e.owner ≠ some { station := k.station, seat := k.seat }
     (k.state = .vacant ∨ k.station = address s ∨ other → summarySetEntry l c s = cleared) ∧
     (k.state ≠ .vacant → k.station ≠ address s → ¬ other →
       (k.state = .retired ∨ k.state = .unplaced →
         (e.fresh = .none → summarySetEntry l c s = s) ∧
         (e.fresh ≠ .none →
           summarySetEntry l c s = { s with replica := s.replica.set c { e with fresh := .gone } })) ∧
       (k.state ≠ .retired → k.state ≠ .unplaced →
         (e.fresh = .gone → summarySetEntry l c s = cleared) ∧
         (e.fresh ≠ .gone → summarySetEntry l c s = s)))) ∧
  (∀ s c, c < s.replica.length →
     entryAt (setReleaseMarks s) c =
       if (entryAt s c).fresh = .none then entryAt s c else { entryAt s c with release := true }) ∧
  ∀ (l : List CarSummary) c syms (s : State), s.replica.length = 8 → c < 8 →
    (parseBlock syms = none → takeBlock l c syms s = s) ∧
    ∀ b, parseBlock syms = some b →
      let k := summaryAt l c
      let e := entryAt s c
      let taken := b.valid = true ∧ b.car = c ∧ b.station < 15 ∧ k.station ≠ address s ∧
        (k.state = .entered ∨ k.state = .racing ∨ k.state = .finished) ∧ b.station = k.station ∧
        b.seat = k.seat ∧
        (∀ d, e.data = some d → e.release = true ∨ 0 < signedDiff b.data.linkStamp d.linkStamp)
      let after : ReplicaEntry :=
        { fresh := if e.fresh = .none then .fresh else e.fresh,
          owner := some { station := b.station, seat := b.seat }, data := some b.data, release := false,
          pres := e.pres }
      let stored : State := { s with replica := s.replica.set c after }
      (¬ taken → takeBlock l c syms s = s) ∧
      (taken → e.fresh = .none ∨ e.data.map (·.appearance) ≠ some b.data.appearance →
        takeBlock l c syms s =
          queueEvent (.appearance c { station := b.station, seat := b.seat } b.data.appearance) stored) ∧
      (taken → e.fresh ≠ .none → e.data.map (·.appearance) = some b.data.appearance →
        takeBlock l c syms s = stored)

/-- The displacement of an axis is v x dt / 1,000,000 rounded to the nearest integer, halves away from zero, and
the extrapolated position p plus it, saturated to the position range; the turn of the heading is rounded alike
and the heading wraps modulo 65,536. The three axes are computed alike with one interval, from 0 to the horizon
(R129, R130). -/
def Obligations.ExtrapolationRoundsAndSaturates : Prop :=
  (∀ (p v : Int) (dt : Nat),
    ∃ d : Int, extrapolate p v dt = max (-8388608) (min 8388607 (p + d)) ∧
      2 * |v * dt - d * 1000000| ≤ 1000000 ∧
      (2 * |v * dt - d * 1000000| = 1000000 → |v * dt| < |d * 1000000|)) ∧
  (∀ (h : Half) (w : Int) (dt : Nat),
    ∃ d : Int, ((extrapolateHeading h w dt).toNat : Int) = (h.toNat + d) % 65536 ∧
      2 * |w * dt - d * 1000000| ≤ 1000000 ∧
      (2 * |w * dt - d * 1000000| = 1000000 → |w * dt| < |d * 1000000|)) ∧
  ∀ (tp : Micros) (horizon : Nat) (r : CarData), ∃ dt : Nat,
    (dt : Int) = max 0 (min (horizon : Int) (signedDiff tp r.linkStamp)) ∧
      poseAt tp horizon r =
        { x := extrapolate r.x r.vx dt, y := extrapolate r.y r.vy dt, z := extrapolate r.z r.vz dt,
          h := extrapolateHeading r.heading r.yaw dt }

/-- A field computation that extrapolates a car corrects each residual by what the extrapolated value of the
report last used exceeds that of the report now used, keeps it when the two reports agree, and begins with 0
when none was used; sets all four to 0 when one exceeds its snap threshold; multiplies each by 16 less the
decay, divides by 16 and truncates toward 0; and presents the extrapolated value plus the residual, a position
saturated and a heading modulo 65,536. After a field computation that extrapolates a car every residual lies
within its snap threshold and every presented position in its range; a residual that is not 0 loses magnitude at
each decay and so reaches 0, at once with a decay of 16 (R131, R132, R133). -/
def Obligations.ResidualsStayWithinTheSnap : Prop :=
  (∀ s tp pres d, setting s 8 ≤ 16 →
    let q := presentCar s tp pres d
    q.rx.natAbs ≤ setting s 9 ∧ q.ry.natAbs ≤ setting s 9 ∧ q.rz.natAbs ≤ setting s 9 ∧
      q.rh.natAbs ≤ setting s 10 ∧ q.used = d ∧
      (-8388608 ≤ q.px ∧ q.px ≤ 8388607) ∧ (-8388608 ≤ q.py ∧ q.py ≤ 8388607) ∧
      (-8388608 ≤ q.pz ∧ q.pz ≤ 8388607)) ∧
  (∀ s tp pres d,
    let q := presentCar s tp pres d
    let e (x : CarData) : Pose := poseAt tp (setting s 7 * 1000) x
    let same (a b : CarData) : Prop :=
      a.linkStamp = b.linkStamp ∧ a.x = b.x ∧ a.y = b.y ∧ a.z = b.z ∧ a.vx = b.vx ∧ a.vy = b.vy ∧
        a.vz = b.vz ∧ a.heading = b.heading ∧ a.yaw = b.yaw
    ∃ rx ry rz rh : Int,
      (pres = none → rx = 0 ∧ ry = 0 ∧ rz = 0 ∧ rh = 0) ∧
      (∀ p, pres = some p →
        (same d p.used → rx = p.rx ∧ ry = p.ry ∧ rz = p.rz ∧ rh = p.rh) ∧
        (¬ same d p.used →
          rx = p.rx + ((e p.used).x - (e d).x) ∧ ry = p.ry + ((e p.used).y - (e d).y) ∧
            rz = p.rz + ((e p.used).z - (e d).z) ∧ rh = p.rh + ((e p.used).h - (e d).h).toInt)) ∧
      (let keeps := rx.natAbs ≤ setting s 9 ∧ ry.natAbs ≤ setting s 9 ∧ rz.natAbs ≤ setting s 9 ∧
          rh.natAbs ≤ setting s 10
       (¬ keeps → q.rx = 0 ∧ q.ry = 0 ∧ q.rz = 0 ∧ q.rh = 0) ∧
       (keeps →
         q.rx = decayOne (setting s 8) rx ∧ q.ry = decayOne (setting s 8) ry ∧
           q.rz = decayOne (setting s 8) rz ∧ q.rh = decayOne (setting s 8) rh)) ∧
      q.px = max (-8388608) (min 8388607 ((e d).x + q.rx)) ∧
      q.py = max (-8388608) (min 8388607 ((e d).y + q.ry)) ∧
      q.pz = max (-8388608) (min 8388607 ((e d).z + q.rz)) ∧
      ((q.ph.toNat : Int) = ((e d).h.toNat + q.rh) % 65536)) ∧
  (∀ (k : Nat) (r : Int), k ≤ 16 → decayOne k r = r.sign * ((r.natAbs * (16 - k) / 16 : Nat) : Int)) ∧
  (∀ (k : Nat) (r : Int), 1 ≤ k → k ≤ 16 → r ≠ 0 → (decayOne k r).natAbs < r.natAbs) ∧
  (∀ (k : Nat) (r : Int), 1 ≤ k → k ≤ 16 → ∃ n, (decayOne k)^[n] r = 0) ∧
  ∀ r : Int, decayOne 16 r = 0

/-! ## The formats -/

/-- A cycle header, car block, slot, collect header or collect entry whose fields lie in their layouts, written
out as bytes with its check, reads back as itself, with every field at every value (R176, R177,
12_formats_and_pins.md). -/
def Obligations.PartsReadBackAsWritten : Prop :=
  (∀ h, headerFits h → parseHeader (toSymbols (headerBytes h)) = some h) ∧
  (∀ b, blockFits b → parseBlock (toSymbols (blockBytes b)) = some b) ∧
  parseSlot (toSymbols (slotBytes none)) = some none ∧
  (∀ m, slotFits m → parseSlot (toSymbols (slotBytes (some m))) = some (some m)) ∧
  (∀ h, collectHeaderFits h → parseCollectHeader (toSymbols (collectHeaderBytes h)) = some h) ∧
  (∀ e, entryFits e → parseEntry (toSymbols (entryBytes e)) = some e)

/-! ## What every step keeps -/

/-- State.reset meets each of the invariants that the statements below say every step keeps (R2, R18, R38, R77,
R88, R90, R151, R165, R172). -/
def Obligations.ResetMeetsTheInvariants : Prop :=
  PinsFollow State.reset ∧ TablesWhole State.reset ∧ TablesInRange State.reset ∧ WithinLimits State.reset ∧
    RaceKept State.reset ∧ FinishKept State.reset ∧ ChannelsAccount State.reset ∧ PortFits State.reset

/-- From every state in which the transmit source and BYP follow the ring state, the receiver and the role, the
ring state suits the role and every table has its size, every step leads to such a state; and every step keeps
every writable settings, race setup and grid entry within its range (R3, R8, R13, R18, R88, R90, R172). -/
def Obligations.StepKeepsPinsAndTables : Prop :=
  (∀ s t, PinsFollow s ∧ RingSuits s ∧ TablesWhole s → step s = .next t →
    PinsFollow t ∧ RingSuits t ∧ TablesWhole t) ∧
  ∀ s t, TablesInRange s → step s = .next t → TablesInRange t

/-- Every step keeps 4 urgent and 8 normal messages, 4 outstanding entries, and every count at most at its
limit; and it keeps the command FIFO within 256 bytes, the report FIFO within 2,048, the oldest report with
bytes left to read, and the notice set with each kind at most once (R14, R56, R58, R59, R65, R109, R165, R166,
R167, R178). -/
def Obligations.StepKeepsQueuesAndFifos : Prop :=
  (∀ s t, WithinLimits s → step s = .next t → WithinLimits t) ∧
  (∀ s t, PortFits s → step s = .next t → PortFits t)

/-- Every step keeps that causes are held and cars are RACING only in RUNNING and CLOSING, that the anchor's GO
schedule is that of its phase, that race time is 0 before the race and until GO has fired, and that an
UNCONFIGURED station has a fresh race; and race time does not fall, unless the race is over or not begun, or a
header has given a node another G. That race time has the status ZERO until GO has fired also at an anchor in
DEFERRED, where R43's row says FROZEN (DEFERRED), and that a RESULTS header learned of late leaves the schedule
FIRED, are the model's inferences (log entries 57 and 21) (R38, R42, R77, R84, R91, R147). -/
def Obligations.StepKeepsTheRace : Prop :=
  ∀ s t, RaceKept s → step s = .next t → RaceKept t ∧ RaceTimeUpheld s t

/-- Every step keeps the finish list ordered by time and car number with each FINISHED car at most once, the
confirmed entries leading it, and every RACING car's stamp above each confirmed time; and a confirmed entry
keeps its placing until the list is emptied (R138, R143, R144). -/
def Obligations.StepKeepsTheFinishOrder : Prop :=
  ∀ s t, RaceKept s → FinishKept s → step s = .next t →
    FinishKept t ∧
      (t.race.finish = [] ∨
        ∀ e ∈ s.race.finish, e.confirmed = true →
          placingOf t.race.finish e.car = placingOf s.race.finish e.car ∧ e ∈ t.race.finish)

/-- Whatever a step does, a car that was RACING keeps its owner and tag, and neither its lap count nor its last
accepted race stamp falls, unless the car becomes VACANT (R91, R140, R141). -/
def Obligations.StepKeepsRacingCars : Prop :=
  ∀ s t c, (carAt s c).state = .racing → step s = .next t → CarUpheld (carAt s c) (carAt t c)

/-- From every state in which, of each send channel, the bytes supplied are those accepted, outstanding and
buffered (unless an abort has emptied the buffer), the buffer holds at most 256, no count stands above the
length, and nothing is ready while something is outstanding, every step leads to such a state (R151, R153, R154,
R155, R156). -/
def Obligations.StepKeepsTheChannels : Prop :=
  ∀ s t, ChannelsAccount s → step s = .next t → ChannelsAccount t
end

