-- ==== Sys2Proof/Laws/State.lean ====
section
/-! SUPPORT. One lemma per block of the state and update of a block, so that no proof unfolds a record update. -/

namespace Sys2Proof.Machine

open Sys2Proof

/-! ### `withLink` -/

@[simp] theorem State.withLink_link (s : State) (v : LinkPort) :
    (s.withLink v).link = v := rfl

@[simp] theorem State.withLink_cyc (s : State) (v : LinkPort) :
    (s.withLink v).cyc = s.cyc := rfl

@[simp] theorem State.withLink_survey (s : State) (v : LinkPort) :
    (s.withLink v).survey = s.survey := rfl

@[simp] theorem State.withLink_time (s : State) (v : LinkPort) :
    (s.withLink v).time = s.time := rfl

@[simp] theorem State.withLink_slots (s : State) (v : LinkPort) :
    (s.withLink v).slots = s.slots := rfl

@[simp] theorem State.withLink_race (s : State) (v : LinkPort) :
    (s.withLink v).race = s.race := rfl

@[simp] theorem State.withLink_seat (s : State) (v : LinkPort) :
    (s.withLink v).seat = s.seat := rfl

@[simp] theorem State.withLink_replica (s : State) (v : LinkPort) :
    (s.withLink v).replica = s.replica := rfl

@[simp] theorem State.withLink_fieldNumber (s : State) (v : LinkPort) :
    (s.withLink v).fieldNumber = s.fieldNumber := rfl

@[simp] theorem State.withLink_dropped (s : State) (v : LinkPort) :
    (s.withLink v).dropped = s.dropped := rfl

@[simp] theorem State.withLink_bulk (s : State) (v : LinkPort) :
    (s.withLink v).bulk = s.bulk := rfl

@[simp] theorem State.withLink_port (s : State) (v : LinkPort) :
    (s.withLink v).port = s.port := rfl

@[simp] theorem State.withLink_settings (s : State) (v : LinkPort) :
    (s.withLink v).settings = s.settings := rfl

@[simp] theorem State.withLink_freeCount (s : State) (v : LinkPort) :
    (s.withLink v).freeCount = s.freeCount := rfl

@[simp] theorem State.withLink_pending (s : State) (v : LinkPort) :
    (s.withLink v).pending = s.pending := rfl

/-- The later update of `link` stands. -/
@[simp] theorem State.withLink_withLink (s : State) (v w : LinkPort) :
    (s.withLink v).withLink w = s.withLink w := rfl

/-- `link` put back as it stands. -/
@[simp] theorem State.withLink_self (s : State) : s.withLink s.link = s := rfl

/-! ### `withCyc` -/

@[simp] theorem State.withCyc_link (s : State) (v : CycleProc) :
    (s.withCyc v).link = s.link := rfl

@[simp] theorem State.withCyc_cyc (s : State) (v : CycleProc) :
    (s.withCyc v).cyc = v := rfl

@[simp] theorem State.withCyc_survey (s : State) (v : CycleProc) :
    (s.withCyc v).survey = s.survey := rfl

@[simp] theorem State.withCyc_time (s : State) (v : CycleProc) :
    (s.withCyc v).time = s.time := rfl

@[simp] theorem State.withCyc_slots (s : State) (v : CycleProc) :
    (s.withCyc v).slots = s.slots := rfl

@[simp] theorem State.withCyc_race (s : State) (v : CycleProc) :
    (s.withCyc v).race = s.race := rfl

@[simp] theorem State.withCyc_seat (s : State) (v : CycleProc) :
    (s.withCyc v).seat = s.seat := rfl

@[simp] theorem State.withCyc_replica (s : State) (v : CycleProc) :
    (s.withCyc v).replica = s.replica := rfl

@[simp] theorem State.withCyc_fieldNumber (s : State) (v : CycleProc) :
    (s.withCyc v).fieldNumber = s.fieldNumber := rfl

@[simp] theorem State.withCyc_dropped (s : State) (v : CycleProc) :
    (s.withCyc v).dropped = s.dropped := rfl

@[simp] theorem State.withCyc_bulk (s : State) (v : CycleProc) :
    (s.withCyc v).bulk = s.bulk := rfl

@[simp] theorem State.withCyc_port (s : State) (v : CycleProc) :
    (s.withCyc v).port = s.port := rfl

@[simp] theorem State.withCyc_settings (s : State) (v : CycleProc) :
    (s.withCyc v).settings = s.settings := rfl

@[simp] theorem State.withCyc_freeCount (s : State) (v : CycleProc) :
    (s.withCyc v).freeCount = s.freeCount := rfl

@[simp] theorem State.withCyc_pending (s : State) (v : CycleProc) :
    (s.withCyc v).pending = s.pending := rfl

/-- The later update of `cyc` stands. -/
@[simp] theorem State.withCyc_withCyc (s : State) (v w : CycleProc) :
    (s.withCyc v).withCyc w = s.withCyc w := rfl

/-- `cyc` put back as it stands. -/
@[simp] theorem State.withCyc_self (s : State) : s.withCyc s.cyc = s := rfl

/-! ### `withSurvey` -/

@[simp] theorem State.withSurvey_link (s : State) (v : SurveyUnit) :
    (s.withSurvey v).link = s.link := rfl

@[simp] theorem State.withSurvey_cyc (s : State) (v : SurveyUnit) :
    (s.withSurvey v).cyc = s.cyc := rfl

@[simp] theorem State.withSurvey_survey (s : State) (v : SurveyUnit) :
    (s.withSurvey v).survey = v := rfl

@[simp] theorem State.withSurvey_time (s : State) (v : SurveyUnit) :
    (s.withSurvey v).time = s.time := rfl

@[simp] theorem State.withSurvey_slots (s : State) (v : SurveyUnit) :
    (s.withSurvey v).slots = s.slots := rfl

@[simp] theorem State.withSurvey_race (s : State) (v : SurveyUnit) :
    (s.withSurvey v).race = s.race := rfl

@[simp] theorem State.withSurvey_seat (s : State) (v : SurveyUnit) :
    (s.withSurvey v).seat = s.seat := rfl

@[simp] theorem State.withSurvey_replica (s : State) (v : SurveyUnit) :
    (s.withSurvey v).replica = s.replica := rfl

@[simp] theorem State.withSurvey_fieldNumber (s : State) (v : SurveyUnit) :
    (s.withSurvey v).fieldNumber = s.fieldNumber := rfl

@[simp] theorem State.withSurvey_dropped (s : State) (v : SurveyUnit) :
    (s.withSurvey v).dropped = s.dropped := rfl

@[simp] theorem State.withSurvey_bulk (s : State) (v : SurveyUnit) :
    (s.withSurvey v).bulk = s.bulk := rfl

@[simp] theorem State.withSurvey_port (s : State) (v : SurveyUnit) :
    (s.withSurvey v).port = s.port := rfl

@[simp] theorem State.withSurvey_settings (s : State) (v : SurveyUnit) :
    (s.withSurvey v).settings = s.settings := rfl

@[simp] theorem State.withSurvey_freeCount (s : State) (v : SurveyUnit) :
    (s.withSurvey v).freeCount = s.freeCount := rfl

@[simp] theorem State.withSurvey_pending (s : State) (v : SurveyUnit) :
    (s.withSurvey v).pending = s.pending := rfl

/-- The later update of `survey` stands. -/
@[simp] theorem State.withSurvey_withSurvey (s : State) (v w : SurveyUnit) :
    (s.withSurvey v).withSurvey w = s.withSurvey w := rfl

/-- `survey` put back as it stands. -/
@[simp] theorem State.withSurvey_self (s : State) : s.withSurvey s.survey = s := rfl

/-! ### `withTime` -/

@[simp] theorem State.withTime_link (s : State) (v : Timebase) :
    (s.withTime v).link = s.link := rfl

@[simp] theorem State.withTime_cyc (s : State) (v : Timebase) :
    (s.withTime v).cyc = s.cyc := rfl

@[simp] theorem State.withTime_survey (s : State) (v : Timebase) :
    (s.withTime v).survey = s.survey := rfl

@[simp] theorem State.withTime_time (s : State) (v : Timebase) :
    (s.withTime v).time = v := rfl

@[simp] theorem State.withTime_slots (s : State) (v : Timebase) :
    (s.withTime v).slots = s.slots := rfl

@[simp] theorem State.withTime_race (s : State) (v : Timebase) :
    (s.withTime v).race = s.race := rfl

@[simp] theorem State.withTime_seat (s : State) (v : Timebase) :
    (s.withTime v).seat = s.seat := rfl

@[simp] theorem State.withTime_replica (s : State) (v : Timebase) :
    (s.withTime v).replica = s.replica := rfl

@[simp] theorem State.withTime_fieldNumber (s : State) (v : Timebase) :
    (s.withTime v).fieldNumber = s.fieldNumber := rfl

@[simp] theorem State.withTime_dropped (s : State) (v : Timebase) :
    (s.withTime v).dropped = s.dropped := rfl

@[simp] theorem State.withTime_bulk (s : State) (v : Timebase) :
    (s.withTime v).bulk = s.bulk := rfl

@[simp] theorem State.withTime_port (s : State) (v : Timebase) :
    (s.withTime v).port = s.port := rfl

@[simp] theorem State.withTime_settings (s : State) (v : Timebase) :
    (s.withTime v).settings = s.settings := rfl

@[simp] theorem State.withTime_freeCount (s : State) (v : Timebase) :
    (s.withTime v).freeCount = s.freeCount := rfl

@[simp] theorem State.withTime_pending (s : State) (v : Timebase) :
    (s.withTime v).pending = s.pending := rfl

/-- The later update of `time` stands. -/
@[simp] theorem State.withTime_withTime (s : State) (v w : Timebase) :
    (s.withTime v).withTime w = s.withTime w := rfl

/-- `time` put back as it stands. -/
@[simp] theorem State.withTime_self (s : State) : s.withTime s.time = s := rfl

/-! ### `withSlots` -/

@[simp] theorem State.withSlots_link (s : State) (v : SlotEngine) :
    (s.withSlots v).link = s.link := rfl

@[simp] theorem State.withSlots_cyc (s : State) (v : SlotEngine) :
    (s.withSlots v).cyc = s.cyc := rfl

@[simp] theorem State.withSlots_survey (s : State) (v : SlotEngine) :
    (s.withSlots v).survey = s.survey := rfl

@[simp] theorem State.withSlots_time (s : State) (v : SlotEngine) :
    (s.withSlots v).time = s.time := rfl

@[simp] theorem State.withSlots_slots (s : State) (v : SlotEngine) :
    (s.withSlots v).slots = v := rfl

@[simp] theorem State.withSlots_race (s : State) (v : SlotEngine) :
    (s.withSlots v).race = s.race := rfl

@[simp] theorem State.withSlots_seat (s : State) (v : SlotEngine) :
    (s.withSlots v).seat = s.seat := rfl

@[simp] theorem State.withSlots_replica (s : State) (v : SlotEngine) :
    (s.withSlots v).replica = s.replica := rfl

@[simp] theorem State.withSlots_fieldNumber (s : State) (v : SlotEngine) :
    (s.withSlots v).fieldNumber = s.fieldNumber := rfl

@[simp] theorem State.withSlots_dropped (s : State) (v : SlotEngine) :
    (s.withSlots v).dropped = s.dropped := rfl

@[simp] theorem State.withSlots_bulk (s : State) (v : SlotEngine) :
    (s.withSlots v).bulk = s.bulk := rfl

@[simp] theorem State.withSlots_port (s : State) (v : SlotEngine) :
    (s.withSlots v).port = s.port := rfl

@[simp] theorem State.withSlots_settings (s : State) (v : SlotEngine) :
    (s.withSlots v).settings = s.settings := rfl

@[simp] theorem State.withSlots_freeCount (s : State) (v : SlotEngine) :
    (s.withSlots v).freeCount = s.freeCount := rfl

@[simp] theorem State.withSlots_pending (s : State) (v : SlotEngine) :
    (s.withSlots v).pending = s.pending := rfl

/-- The later update of `slots` stands. -/
@[simp] theorem State.withSlots_withSlots (s : State) (v w : SlotEngine) :
    (s.withSlots v).withSlots w = s.withSlots w := rfl

/-- `slots` put back as it stands. -/
@[simp] theorem State.withSlots_self (s : State) : s.withSlots s.slots = s := rfl

/-! ### `withRace` -/

@[simp] theorem State.withRace_link (s : State) (v : RaceControl) :
    (s.withRace v).link = s.link := rfl

@[simp] theorem State.withRace_cyc (s : State) (v : RaceControl) :
    (s.withRace v).cyc = s.cyc := rfl

@[simp] theorem State.withRace_survey (s : State) (v : RaceControl) :
    (s.withRace v).survey = s.survey := rfl

@[simp] theorem State.withRace_time (s : State) (v : RaceControl) :
    (s.withRace v).time = s.time := rfl

@[simp] theorem State.withRace_slots (s : State) (v : RaceControl) :
    (s.withRace v).slots = s.slots := rfl

@[simp] theorem State.withRace_race (s : State) (v : RaceControl) :
    (s.withRace v).race = v := rfl

@[simp] theorem State.withRace_seat (s : State) (v : RaceControl) :
    (s.withRace v).seat = s.seat := rfl

@[simp] theorem State.withRace_replica (s : State) (v : RaceControl) :
    (s.withRace v).replica = s.replica := rfl

@[simp] theorem State.withRace_fieldNumber (s : State) (v : RaceControl) :
    (s.withRace v).fieldNumber = s.fieldNumber := rfl

@[simp] theorem State.withRace_dropped (s : State) (v : RaceControl) :
    (s.withRace v).dropped = s.dropped := rfl

@[simp] theorem State.withRace_bulk (s : State) (v : RaceControl) :
    (s.withRace v).bulk = s.bulk := rfl

@[simp] theorem State.withRace_port (s : State) (v : RaceControl) :
    (s.withRace v).port = s.port := rfl

@[simp] theorem State.withRace_settings (s : State) (v : RaceControl) :
    (s.withRace v).settings = s.settings := rfl

@[simp] theorem State.withRace_freeCount (s : State) (v : RaceControl) :
    (s.withRace v).freeCount = s.freeCount := rfl

@[simp] theorem State.withRace_pending (s : State) (v : RaceControl) :
    (s.withRace v).pending = s.pending := rfl

/-- The later update of `race` stands. -/
@[simp] theorem State.withRace_withRace (s : State) (v w : RaceControl) :
    (s.withRace v).withRace w = s.withRace w := rfl

/-- `race` put back as it stands. -/
@[simp] theorem State.withRace_self (s : State) : s.withRace s.race = s := rfl

/-! ### `withSeat` -/

@[simp] theorem State.withSeat_link (s : State) (v : SeatUnit) :
    (s.withSeat v).link = s.link := rfl

@[simp] theorem State.withSeat_cyc (s : State) (v : SeatUnit) :
    (s.withSeat v).cyc = s.cyc := rfl

@[simp] theorem State.withSeat_survey (s : State) (v : SeatUnit) :
    (s.withSeat v).survey = s.survey := rfl

@[simp] theorem State.withSeat_time (s : State) (v : SeatUnit) :
    (s.withSeat v).time = s.time := rfl

@[simp] theorem State.withSeat_slots (s : State) (v : SeatUnit) :
    (s.withSeat v).slots = s.slots := rfl

@[simp] theorem State.withSeat_race (s : State) (v : SeatUnit) :
    (s.withSeat v).race = s.race := rfl

@[simp] theorem State.withSeat_seat (s : State) (v : SeatUnit) :
    (s.withSeat v).seat = v := rfl

@[simp] theorem State.withSeat_replica (s : State) (v : SeatUnit) :
    (s.withSeat v).replica = s.replica := rfl

@[simp] theorem State.withSeat_fieldNumber (s : State) (v : SeatUnit) :
    (s.withSeat v).fieldNumber = s.fieldNumber := rfl

@[simp] theorem State.withSeat_dropped (s : State) (v : SeatUnit) :
    (s.withSeat v).dropped = s.dropped := rfl

@[simp] theorem State.withSeat_bulk (s : State) (v : SeatUnit) :
    (s.withSeat v).bulk = s.bulk := rfl

@[simp] theorem State.withSeat_port (s : State) (v : SeatUnit) :
    (s.withSeat v).port = s.port := rfl

@[simp] theorem State.withSeat_settings (s : State) (v : SeatUnit) :
    (s.withSeat v).settings = s.settings := rfl

@[simp] theorem State.withSeat_freeCount (s : State) (v : SeatUnit) :
    (s.withSeat v).freeCount = s.freeCount := rfl

@[simp] theorem State.withSeat_pending (s : State) (v : SeatUnit) :
    (s.withSeat v).pending = s.pending := rfl

/-- The later update of `seat` stands. -/
@[simp] theorem State.withSeat_withSeat (s : State) (v w : SeatUnit) :
    (s.withSeat v).withSeat w = s.withSeat w := rfl

/-- `seat` put back as it stands. -/
@[simp] theorem State.withSeat_self (s : State) : s.withSeat s.seat = s := rfl

/-! ### `withReplica` -/

@[simp] theorem State.withReplica_link (s : State) (v : List ReplicaEntry) :
    (s.withReplica v).link = s.link := rfl

@[simp] theorem State.withReplica_cyc (s : State) (v : List ReplicaEntry) :
    (s.withReplica v).cyc = s.cyc := rfl

@[simp] theorem State.withReplica_survey (s : State) (v : List ReplicaEntry) :
    (s.withReplica v).survey = s.survey := rfl

@[simp] theorem State.withReplica_time (s : State) (v : List ReplicaEntry) :
    (s.withReplica v).time = s.time := rfl

@[simp] theorem State.withReplica_slots (s : State) (v : List ReplicaEntry) :
    (s.withReplica v).slots = s.slots := rfl

@[simp] theorem State.withReplica_race (s : State) (v : List ReplicaEntry) :
    (s.withReplica v).race = s.race := rfl

@[simp] theorem State.withReplica_seat (s : State) (v : List ReplicaEntry) :
    (s.withReplica v).seat = s.seat := rfl

@[simp] theorem State.withReplica_replica (s : State) (v : List ReplicaEntry) :
    (s.withReplica v).replica = v := rfl

@[simp] theorem State.withReplica_fieldNumber (s : State) (v : List ReplicaEntry) :
    (s.withReplica v).fieldNumber = s.fieldNumber := rfl

@[simp] theorem State.withReplica_dropped (s : State) (v : List ReplicaEntry) :
    (s.withReplica v).dropped = s.dropped := rfl

@[simp] theorem State.withReplica_bulk (s : State) (v : List ReplicaEntry) :
    (s.withReplica v).bulk = s.bulk := rfl

@[simp] theorem State.withReplica_port (s : State) (v : List ReplicaEntry) :
    (s.withReplica v).port = s.port := rfl

@[simp] theorem State.withReplica_settings (s : State) (v : List ReplicaEntry) :
    (s.withReplica v).settings = s.settings := rfl

@[simp] theorem State.withReplica_freeCount (s : State) (v : List ReplicaEntry) :
    (s.withReplica v).freeCount = s.freeCount := rfl

@[simp] theorem State.withReplica_pending (s : State) (v : List ReplicaEntry) :
    (s.withReplica v).pending = s.pending := rfl

/-- The later update of `replica` stands. -/
@[simp] theorem State.withReplica_withReplica (s : State) (v w : List ReplicaEntry) :
    (s.withReplica v).withReplica w = s.withReplica w := rfl

/-- `replica` put back as it stands. -/
@[simp] theorem State.withReplica_self (s : State) : s.withReplica s.replica = s := rfl

/-! ### `withFieldNumber` -/

@[simp] theorem State.withFieldNumber_link (s : State) (v : Micros) :
    (s.withFieldNumber v).link = s.link := rfl

@[simp] theorem State.withFieldNumber_cyc (s : State) (v : Micros) :
    (s.withFieldNumber v).cyc = s.cyc := rfl

@[simp] theorem State.withFieldNumber_survey (s : State) (v : Micros) :
    (s.withFieldNumber v).survey = s.survey := rfl

@[simp] theorem State.withFieldNumber_time (s : State) (v : Micros) :
    (s.withFieldNumber v).time = s.time := rfl

@[simp] theorem State.withFieldNumber_slots (s : State) (v : Micros) :
    (s.withFieldNumber v).slots = s.slots := rfl

@[simp] theorem State.withFieldNumber_race (s : State) (v : Micros) :
    (s.withFieldNumber v).race = s.race := rfl

@[simp] theorem State.withFieldNumber_seat (s : State) (v : Micros) :
    (s.withFieldNumber v).seat = s.seat := rfl

@[simp] theorem State.withFieldNumber_replica (s : State) (v : Micros) :
    (s.withFieldNumber v).replica = s.replica := rfl

@[simp] theorem State.withFieldNumber_fieldNumber (s : State) (v : Micros) :
    (s.withFieldNumber v).fieldNumber = v := rfl

@[simp] theorem State.withFieldNumber_dropped (s : State) (v : Micros) :
    (s.withFieldNumber v).dropped = s.dropped := rfl

@[simp] theorem State.withFieldNumber_bulk (s : State) (v : Micros) :
    (s.withFieldNumber v).bulk = s.bulk := rfl

@[simp] theorem State.withFieldNumber_port (s : State) (v : Micros) :
    (s.withFieldNumber v).port = s.port := rfl

@[simp] theorem State.withFieldNumber_settings (s : State) (v : Micros) :
    (s.withFieldNumber v).settings = s.settings := rfl

@[simp] theorem State.withFieldNumber_freeCount (s : State) (v : Micros) :
    (s.withFieldNumber v).freeCount = s.freeCount := rfl

@[simp] theorem State.withFieldNumber_pending (s : State) (v : Micros) :
    (s.withFieldNumber v).pending = s.pending := rfl

/-- The later update of `fieldNumber` stands. -/
@[simp] theorem State.withFieldNumber_withFieldNumber (s : State) (v w : Micros) :
    (s.withFieldNumber v).withFieldNumber w = s.withFieldNumber w := rfl

/-- `fieldNumber` put back as it stands. -/
@[simp] theorem State.withFieldNumber_self (s : State) : s.withFieldNumber s.fieldNumber = s := rfl

/-! ### `withDropped` -/

@[simp] theorem State.withDropped_link (s : State) (v : Nat) :
    (s.withDropped v).link = s.link := rfl

@[simp] theorem State.withDropped_cyc (s : State) (v : Nat) :
    (s.withDropped v).cyc = s.cyc := rfl

@[simp] theorem State.withDropped_survey (s : State) (v : Nat) :
    (s.withDropped v).survey = s.survey := rfl

@[simp] theorem State.withDropped_time (s : State) (v : Nat) :
    (s.withDropped v).time = s.time := rfl

@[simp] theorem State.withDropped_slots (s : State) (v : Nat) :
    (s.withDropped v).slots = s.slots := rfl

@[simp] theorem State.withDropped_race (s : State) (v : Nat) :
    (s.withDropped v).race = s.race := rfl

@[simp] theorem State.withDropped_seat (s : State) (v : Nat) :
    (s.withDropped v).seat = s.seat := rfl

@[simp] theorem State.withDropped_replica (s : State) (v : Nat) :
    (s.withDropped v).replica = s.replica := rfl

@[simp] theorem State.withDropped_fieldNumber (s : State) (v : Nat) :
    (s.withDropped v).fieldNumber = s.fieldNumber := rfl

@[simp] theorem State.withDropped_dropped (s : State) (v : Nat) :
    (s.withDropped v).dropped = v := rfl

@[simp] theorem State.withDropped_bulk (s : State) (v : Nat) :
    (s.withDropped v).bulk = s.bulk := rfl

@[simp] theorem State.withDropped_port (s : State) (v : Nat) :
    (s.withDropped v).port = s.port := rfl

@[simp] theorem State.withDropped_settings (s : State) (v : Nat) :
    (s.withDropped v).settings = s.settings := rfl

@[simp] theorem State.withDropped_freeCount (s : State) (v : Nat) :
    (s.withDropped v).freeCount = s.freeCount := rfl

@[simp] theorem State.withDropped_pending (s : State) (v : Nat) :
    (s.withDropped v).pending = s.pending := rfl

/-- The later update of `dropped` stands. -/
@[simp] theorem State.withDropped_withDropped (s : State) (v w : Nat) :
    (s.withDropped v).withDropped w = s.withDropped w := rfl

/-- `dropped` put back as it stands. -/
@[simp] theorem State.withDropped_self (s : State) : s.withDropped s.dropped = s := rfl

/-! ### `withBulk` -/

@[simp] theorem State.withBulk_link (s : State) (v : BulkUnit) :
    (s.withBulk v).link = s.link := rfl

@[simp] theorem State.withBulk_cyc (s : State) (v : BulkUnit) :
    (s.withBulk v).cyc = s.cyc := rfl

@[simp] theorem State.withBulk_survey (s : State) (v : BulkUnit) :
    (s.withBulk v).survey = s.survey := rfl

@[simp] theorem State.withBulk_time (s : State) (v : BulkUnit) :
    (s.withBulk v).time = s.time := rfl

@[simp] theorem State.withBulk_slots (s : State) (v : BulkUnit) :
    (s.withBulk v).slots = s.slots := rfl

@[simp] theorem State.withBulk_race (s : State) (v : BulkUnit) :
    (s.withBulk v).race = s.race := rfl

@[simp] theorem State.withBulk_seat (s : State) (v : BulkUnit) :
    (s.withBulk v).seat = s.seat := rfl

@[simp] theorem State.withBulk_replica (s : State) (v : BulkUnit) :
    (s.withBulk v).replica = s.replica := rfl

@[simp] theorem State.withBulk_fieldNumber (s : State) (v : BulkUnit) :
    (s.withBulk v).fieldNumber = s.fieldNumber := rfl

@[simp] theorem State.withBulk_dropped (s : State) (v : BulkUnit) :
    (s.withBulk v).dropped = s.dropped := rfl

@[simp] theorem State.withBulk_bulk (s : State) (v : BulkUnit) :
    (s.withBulk v).bulk = v := rfl

@[simp] theorem State.withBulk_port (s : State) (v : BulkUnit) :
    (s.withBulk v).port = s.port := rfl

@[simp] theorem State.withBulk_settings (s : State) (v : BulkUnit) :
    (s.withBulk v).settings = s.settings := rfl

@[simp] theorem State.withBulk_freeCount (s : State) (v : BulkUnit) :
    (s.withBulk v).freeCount = s.freeCount := rfl

@[simp] theorem State.withBulk_pending (s : State) (v : BulkUnit) :
    (s.withBulk v).pending = s.pending := rfl

/-- The later update of `bulk` stands. -/
@[simp] theorem State.withBulk_withBulk (s : State) (v w : BulkUnit) :
    (s.withBulk v).withBulk w = s.withBulk w := rfl

/-- `bulk` put back as it stands. -/
@[simp] theorem State.withBulk_self (s : State) : s.withBulk s.bulk = s := rfl

/-! ### `withPort` -/

@[simp] theorem State.withPort_link (s : State) (v : CabinetPort) :
    (s.withPort v).link = s.link := rfl

@[simp] theorem State.withPort_cyc (s : State) (v : CabinetPort) :
    (s.withPort v).cyc = s.cyc := rfl

@[simp] theorem State.withPort_survey (s : State) (v : CabinetPort) :
    (s.withPort v).survey = s.survey := rfl

@[simp] theorem State.withPort_time (s : State) (v : CabinetPort) :
    (s.withPort v).time = s.time := rfl

@[simp] theorem State.withPort_slots (s : State) (v : CabinetPort) :
    (s.withPort v).slots = s.slots := rfl

@[simp] theorem State.withPort_race (s : State) (v : CabinetPort) :
    (s.withPort v).race = s.race := rfl

@[simp] theorem State.withPort_seat (s : State) (v : CabinetPort) :
    (s.withPort v).seat = s.seat := rfl

@[simp] theorem State.withPort_replica (s : State) (v : CabinetPort) :
    (s.withPort v).replica = s.replica := rfl

@[simp] theorem State.withPort_fieldNumber (s : State) (v : CabinetPort) :
    (s.withPort v).fieldNumber = s.fieldNumber := rfl

@[simp] theorem State.withPort_dropped (s : State) (v : CabinetPort) :
    (s.withPort v).dropped = s.dropped := rfl

@[simp] theorem State.withPort_bulk (s : State) (v : CabinetPort) :
    (s.withPort v).bulk = s.bulk := rfl

@[simp] theorem State.withPort_port (s : State) (v : CabinetPort) :
    (s.withPort v).port = v := rfl

@[simp] theorem State.withPort_settings (s : State) (v : CabinetPort) :
    (s.withPort v).settings = s.settings := rfl

@[simp] theorem State.withPort_freeCount (s : State) (v : CabinetPort) :
    (s.withPort v).freeCount = s.freeCount := rfl

@[simp] theorem State.withPort_pending (s : State) (v : CabinetPort) :
    (s.withPort v).pending = s.pending := rfl

/-- The later update of `port` stands. -/
@[simp] theorem State.withPort_withPort (s : State) (v w : CabinetPort) :
    (s.withPort v).withPort w = s.withPort w := rfl

/-- `port` put back as it stands. -/
@[simp] theorem State.withPort_self (s : State) : s.withPort s.port = s := rfl

/-! ### `withSettings` -/

@[simp] theorem State.withSettings_link (s : State) (v : SettingsUnit) :
    (s.withSettings v).link = s.link := rfl

@[simp] theorem State.withSettings_cyc (s : State) (v : SettingsUnit) :
    (s.withSettings v).cyc = s.cyc := rfl

@[simp] theorem State.withSettings_survey (s : State) (v : SettingsUnit) :
    (s.withSettings v).survey = s.survey := rfl

@[simp] theorem State.withSettings_time (s : State) (v : SettingsUnit) :
    (s.withSettings v).time = s.time := rfl

@[simp] theorem State.withSettings_slots (s : State) (v : SettingsUnit) :
    (s.withSettings v).slots = s.slots := rfl

@[simp] theorem State.withSettings_race (s : State) (v : SettingsUnit) :
    (s.withSettings v).race = s.race := rfl

@[simp] theorem State.withSettings_seat (s : State) (v : SettingsUnit) :
    (s.withSettings v).seat = s.seat := rfl

@[simp] theorem State.withSettings_replica (s : State) (v : SettingsUnit) :
    (s.withSettings v).replica = s.replica := rfl

@[simp] theorem State.withSettings_fieldNumber (s : State) (v : SettingsUnit) :
    (s.withSettings v).fieldNumber = s.fieldNumber := rfl

@[simp] theorem State.withSettings_dropped (s : State) (v : SettingsUnit) :
    (s.withSettings v).dropped = s.dropped := rfl

@[simp] theorem State.withSettings_bulk (s : State) (v : SettingsUnit) :
    (s.withSettings v).bulk = s.bulk := rfl

@[simp] theorem State.withSettings_port (s : State) (v : SettingsUnit) :
    (s.withSettings v).port = s.port := rfl

@[simp] theorem State.withSettings_settings (s : State) (v : SettingsUnit) :
    (s.withSettings v).settings = v := rfl

@[simp] theorem State.withSettings_freeCount (s : State) (v : SettingsUnit) :
    (s.withSettings v).freeCount = s.freeCount := rfl

@[simp] theorem State.withSettings_pending (s : State) (v : SettingsUnit) :
    (s.withSettings v).pending = s.pending := rfl

/-- The later update of `settings` stands. -/
@[simp] theorem State.withSettings_withSettings (s : State) (v w : SettingsUnit) :
    (s.withSettings v).withSettings w = s.withSettings w := rfl

/-- `settings` put back as it stands. -/
@[simp] theorem State.withSettings_self (s : State) : s.withSettings s.settings = s := rfl

/-! ### `withFreeCount` -/

@[simp] theorem State.withFreeCount_link (s : State) (v : Nat) :
    (s.withFreeCount v).link = s.link := rfl

@[simp] theorem State.withFreeCount_cyc (s : State) (v : Nat) :
    (s.withFreeCount v).cyc = s.cyc := rfl

@[simp] theorem State.withFreeCount_survey (s : State) (v : Nat) :
    (s.withFreeCount v).survey = s.survey := rfl

@[simp] theorem State.withFreeCount_time (s : State) (v : Nat) :
    (s.withFreeCount v).time = s.time := rfl

@[simp] theorem State.withFreeCount_slots (s : State) (v : Nat) :
    (s.withFreeCount v).slots = s.slots := rfl

@[simp] theorem State.withFreeCount_race (s : State) (v : Nat) :
    (s.withFreeCount v).race = s.race := rfl

@[simp] theorem State.withFreeCount_seat (s : State) (v : Nat) :
    (s.withFreeCount v).seat = s.seat := rfl

@[simp] theorem State.withFreeCount_replica (s : State) (v : Nat) :
    (s.withFreeCount v).replica = s.replica := rfl

@[simp] theorem State.withFreeCount_fieldNumber (s : State) (v : Nat) :
    (s.withFreeCount v).fieldNumber = s.fieldNumber := rfl

@[simp] theorem State.withFreeCount_dropped (s : State) (v : Nat) :
    (s.withFreeCount v).dropped = s.dropped := rfl

@[simp] theorem State.withFreeCount_bulk (s : State) (v : Nat) :
    (s.withFreeCount v).bulk = s.bulk := rfl

@[simp] theorem State.withFreeCount_port (s : State) (v : Nat) :
    (s.withFreeCount v).port = s.port := rfl

@[simp] theorem State.withFreeCount_settings (s : State) (v : Nat) :
    (s.withFreeCount v).settings = s.settings := rfl

@[simp] theorem State.withFreeCount_freeCount (s : State) (v : Nat) :
    (s.withFreeCount v).freeCount = v := rfl

@[simp] theorem State.withFreeCount_pending (s : State) (v : Nat) :
    (s.withFreeCount v).pending = s.pending := rfl

/-- The later update of `freeCount` stands. -/
@[simp] theorem State.withFreeCount_withFreeCount (s : State) (v w : Nat) :
    (s.withFreeCount v).withFreeCount w = s.withFreeCount w := rfl

/-- `freeCount` put back as it stands. -/
@[simp] theorem State.withFreeCount_self (s : State) : s.withFreeCount s.freeCount = s := rfl

/-! ### `withPending` -/

@[simp] theorem State.withPending_link (s : State) (v : List Instr) :
    (s.withPending v).link = s.link := rfl

@[simp] theorem State.withPending_cyc (s : State) (v : List Instr) :
    (s.withPending v).cyc = s.cyc := rfl

@[simp] theorem State.withPending_survey (s : State) (v : List Instr) :
    (s.withPending v).survey = s.survey := rfl

@[simp] theorem State.withPending_time (s : State) (v : List Instr) :
    (s.withPending v).time = s.time := rfl

@[simp] theorem State.withPending_slots (s : State) (v : List Instr) :
    (s.withPending v).slots = s.slots := rfl

@[simp] theorem State.withPending_race (s : State) (v : List Instr) :
    (s.withPending v).race = s.race := rfl

@[simp] theorem State.withPending_seat (s : State) (v : List Instr) :
    (s.withPending v).seat = s.seat := rfl

@[simp] theorem State.withPending_replica (s : State) (v : List Instr) :
    (s.withPending v).replica = s.replica := rfl

@[simp] theorem State.withPending_fieldNumber (s : State) (v : List Instr) :
    (s.withPending v).fieldNumber = s.fieldNumber := rfl

@[simp] theorem State.withPending_dropped (s : State) (v : List Instr) :
    (s.withPending v).dropped = s.dropped := rfl

@[simp] theorem State.withPending_bulk (s : State) (v : List Instr) :
    (s.withPending v).bulk = s.bulk := rfl

@[simp] theorem State.withPending_port (s : State) (v : List Instr) :
    (s.withPending v).port = s.port := rfl

@[simp] theorem State.withPending_settings (s : State) (v : List Instr) :
    (s.withPending v).settings = s.settings := rfl

@[simp] theorem State.withPending_freeCount (s : State) (v : List Instr) :
    (s.withPending v).freeCount = s.freeCount := rfl

@[simp] theorem State.withPending_pending (s : State) (v : List Instr) :
    (s.withPending v).pending = v := rfl

/-- The later update of `pending` stands. -/
@[simp] theorem State.withPending_withPending (s : State) (v w : List Instr) :
    (s.withPending v).withPending w = s.withPending w := rfl

/-- `pending` put back as it stands. -/
@[simp] theorem State.withPending_self (s : State) : s.withPending s.pending = s := rfl

end Sys2Proof.Machine
end

