-- ==== Sys2Proof/Laws/Ops.lean ====
section
/-! SUPPORT. What each shared operation of Machine/Ops.lean can do, said once: later proofs cite these lemmas and
unfold none of the operations. -/

namespace Sys2Proof.Machine

open Sys2Proof

/-! ## Free values -/

/-- A free number advances the counter and nothing else. -/
@[simp] theorem freeValue_state (s : State) : (freeValue s).2 = s.withFreeCount (s.freeCount + 1) := rfl

/-- A free player tag advances the counter and nothing else. -/
@[simp] theorem freePlayerTag_state (s : State) :
    (freePlayerTag s).2 = s.withFreeCount (s.freeCount + 1) := rfl

/-! ## Reports and notices -/

/-- A notice recorded is one of the set's own or the one given. -/
theorem mem_insertNotice (k j : NoticeKind) (l : List NoticeKind) :
    j ∈ insertNotice k l ↔ j = k ∨ j ∈ l := by
  have h : j ∈ allNotices := by cases j <;> decide
  simp [insertNotice, h]

/-- The notice set keeps the order of R167. -/
theorem insertNotice_sublist (k : NoticeKind) (l : List NoticeKind) :
    (insertNotice k l).Sublist allNotices := List.filter_sublist

/-- The notice set holds each kind at most once. -/
theorem insertNotice_nodup (k : NoticeKind) (l : List NoticeKind) : (insertNotice k l).Nodup :=
  (insertNotice_sublist k l).nodup (by decide)

/-- A report placed changes the port alone. -/
theorem placeReport_frame (r : Report) (s : State) : ∃ p, placeReport r s = s.withPort p := ⟨_, rfl⟩

/-- A notice recorded changes the port alone. -/
theorem recordNotice_frame (k : NoticeKind) (s : State) : ∃ p, recordNotice k s = s.withPort p := ⟨_, rfl⟩

/-- An event report is placed at the tail of the report FIFO, or becomes its notice, or has no notice kind and
is not queued at all. -/
theorem queueEvent_cases (r : Report) (s : State) :
    (∃ k, noticeOf r = some k ∧ s.port.notices = [] ∧ roomFor s r = true ∧ queueEvent r s = placeReport r s) ∨
      (∃ k, noticeOf r = some k ∧ (s.port.notices ≠ [] ∨ roomFor s r = false) ∧
        queueEvent r s = recordNotice k s) ∨
      (noticeOf r = none ∧ queueEvent r s = s) := by
  unfold queueEvent
  cases h : noticeOf r with
  | none => simp
  | some k =>
    cases hn : s.port.notices <;> cases hr : roomFor s r <;> simp

/-- An event report changes the port alone. -/
theorem queueEvent_frame (r : Report) (s : State) : ∃ p, queueEvent r s = s.withPort p := by
  rcases queueEvent_cases r s with ⟨k, -, -, -, h⟩ | ⟨k, -, -, h⟩ | ⟨-, h⟩
  · exact ⟨_, h⟩
  · exact ⟨_, h⟩
  · exact ⟨s.port, h⟩

/-- A RING report changes the port alone. -/
theorem queueRing_frame (c : RingCondition) (s : State) : ∃ p, queueRing c s = s.withPort p :=
  queueEvent_frame _ s

/-- A reply is placed when the FIFO has room for it. -/
theorem giveReply_room (re : ReplyTo) (body : ReplyBody) (s : State) (h : roomFor s (.reply re body) = true) :
    giveReply re body s = placeReport (.reply re body) s := by simp [giveReply, h]

/-- A reply changes the port alone. -/
theorem giveReply_frame (re : ReplyTo) (body : ReplyBody) (s : State) :
    ∃ p, giveReply re body s = s.withPort p := by
  unfold giveReply
  split
  · exact ⟨_, rfl⟩
  · exact ⟨_, rfl⟩

/-! ## Ring and receiver -/

/-- Entering a ring state changes the ring state, the transmit source and BYP alone. -/
theorem setRing_eq (r : RingState) (s : State) :
    setRing r s = (s.withCyc { s.cyc with ring := r }).withLink
      { s.link with tx := txFor r s.link.rx, byp := bypFor r (role s) } := rfl

/-- A change of the receiver changes the link port and the cabinet port alone. -/
theorem setReceiver_frame (rx : RxState) (fill err : Nat) (s : State) :
    ∃ p, setReceiver rx fill err s =
      (s.withLink
        { s.link with rx := rx, fillRun := fill, errorRun := err, tx := txFor s.cyc.ring rx }).withPort p :=
  queueRing_frame _ _

/-- Frames sent change the link output and what the loop holds alone. -/
theorem sendFrames_eq (l : List OutFrame) (s : State) :
    sendFrames l s = s.withLink { s.link with out := l, loop := loopAfter l s.link.loop } := rfl

/-- A frame that is not looped leaves what the loop holds. -/
@[simp] theorem loopAfter_forwarded (k : FrameKind) (y : List RxSym) (held : Option LoopFrame) :
    loopAfter [{ kind := k, symbols := y, looped := false }] held = held := rfl

/-- A looped frame is what the loop holds, for the µs of its symbols. -/
@[simp] theorem loopAfter_looped (k : FrameKind) (y : List RxSym) (held : Option LoopFrame) :
    loopAfter [{ kind := k, symbols := y, looped := true }] held =
      some { kind := k, symbols := y, left := loopMicros y.length } := rfl

/-- A frame heard changes the run of code errors in UP, and the fill run in DOWN. -/
theorem heard_cases (s : State) :
    (s.link.rx = .up ∧ heard s = s.withLink { s.link with errorRun := 0 }) ∨
      (s.link.rx = .down ∧ heard s = s.withLink { s.link with fillRun := 0 }) := by
  unfold heard
  cases s.link.rx <;> simp

/-- A symbol of a gap changes the link port, and the port when the receiver changes, alone. -/
theorem hearSymbol_frame (x : GapSymbol) (s : State) :
    ∃ l p, hearSymbol x s = (s.withLink l).withPort p := by
  unfold hearSymbol
  split
  · split
    · obtain ⟨p, h⟩ := setReceiver_frame .up 64 0 s
      exact ⟨_, p, h⟩
    · exact ⟨_, s.port, rfl⟩
  · exact ⟨_, s.port, rfl⟩
  · split
    · obtain ⟨p, h⟩ := setReceiver_frame .down 0 0 s
      exact ⟨_, p, h⟩
    · exact ⟨_, s.port, rfl⟩
  · exact ⟨_, s.port, rfl⟩

/-- The symbols of a gap are heard one by one. -/
@[simp] theorem hearGap_nil (s : State) : hearGap [] s = s := rfl

/-- The first symbol of a gap is heard before the rest. -/
@[simp] theorem hearGap_cons (x : GapSymbol) (gap : List GapSymbol) (s : State) :
    hearGap (x :: gap) s = hearGap gap (hearSymbol x s) := rfl

/-- The FILL symbols that a fill run lacks raise a receiver that is DOWN. -/
theorem hearGap_fill (n : Nat) (s : State) (hn : 1 ≤ n) (hd : s.link.rx = .down)
    (h : s.link.fillRun + n = 64) : hearGap (List.replicate n .fill) s = setReceiver .up 64 0 s := by
  induction n generalizing s with
  | zero => omega
  | succ n ih =>
    rw [List.replicate_succ, hearGap_cons]
    by_cases hm : n = 0
    · subst hm
      have h63 : 63 ≤ s.link.fillRun := by omega
      simp [hearSymbol, hd, h63]
    · have h63 : ¬ 63 ≤ s.link.fillRun := by omega
      rw [show hearSymbol .fill s = s.withLink { s.link with fillRun := s.link.fillRun + 1 } by
        simp [hearSymbol, hd, h63]]
      rw [ih _ (by omega) (by simp [hd]) (by simp; omega)]
      rfl

/-! ## The timebase -/

/-- Race time set stays at or below the top. -/
theorem setRaceTime_race (v : Nat) (st : RaceStatus) (t : Timebase) :
    (setRaceTime v st t).race.toNat = min topMicros v := by
  unfold setRaceTime topMicros
  split
  · simp; omega
  · simp; omega

/-- Setting race time leaves link time, the schedule, the pulse, the latch and the computation. -/
theorem setRaceTime_frame (v : Nat) (st : RaceStatus) (t : Timebase) :
    ∃ r q, setRaceTime v st t = { t with race := r, raceWait := 0, raceStatus := q } := by
  unfold setRaceTime
  split
  · exact ⟨_, _, rfl⟩
  · exact ⟨_, _, rfl⟩

/-- A ring event freezes race time at its value, or leaves it. -/
theorem freezeByRing_cases (c : FreezeCause) (t : Timebase) :
    freezeByRing c t = t ∨ freezeByRing c t = freezeRace c t := by
  unfold freezeByRing
  split <;> simp

/-- A ring event leaves the value of race time. -/
@[simp] theorem freezeByRing_race (c : FreezeCause) (t : Timebase) : (freezeByRing c t).race = t.race := by
  rcases freezeByRing_cases c t with h | h <;> rw [h]
  rfl

/-- After a ring event race time neither counts nor waits. -/
theorem freezeByRing_stands (c : FreezeCause) (t : Timebase) :
    (freezeByRing c t).raceStatus ≠ .counting ∧ (freezeByRing c t).raceStatus ≠ .waiting := by
  unfold freezeByRing freezeRace
  split <;> simp_all

/-- Nothing of a wait remains of a race time that a ring event freezes (notes/assumptions/88.md). -/
theorem freezeByRing_keeps_wait (c : FreezeCause) (t : Timebase)
    (h : t.raceStatus ≠ .waiting → t.raceWait = 0) : (freezeByRing c t).raceWait = 0 := by
  unfold freezeByRing freezeRace
  split <;> simp_all

/-- While time passes, the race wait remaining stays 0 in every status but WAITING
(notes/assumptions/88.md). -/
theorem elapseRace_keeps_wait (d : Nat) (t : Timebase) (h : t.raceStatus ≠ .waiting → t.raceWait = 0) :
    (elapseRace d t).raceStatus ≠ .waiting → (elapseRace d t).raceWait = 0 := by
  unfold elapseRace countRace
  split
  · simp_all
  · split <;> simp_all
  · exact h
  · exact h

/-- Link time that passes: it counts by that much, by what a wait leaves of it, or stands. -/
theorem elapseLink_link (d : Nat) (t : Timebase) :
    (elapseLink d t).link =
      if t.linkStatus = .counting then t.link + BitVec.ofNat 32 d
      else if t.linkStatus = .waiting ∧ t.linkWait < d then t.link + BitVec.ofNat 32 (d - t.linkWait)
      else t.link := by
  unfold elapseLink
  split
  · simp_all
  · split <;> simp_all
  · simp_all

/-- Race time that counts on: it saturates at the top. -/
theorem countRace_race (d : Nat) (t : Timebase) :
    (countRace d t).race.toNat = min topMicros (t.race.toNat + d) := by
  unfold countRace topMicros
  simp

/-- Race time that passes: it counts by that much or by what a wait leaves of it, saturating at the top, or
stands. -/
theorem elapseRace_race (d : Nat) (t : Timebase) :
    (elapseRace d t).race.toNat =
      if t.raceStatus = .counting then min topMicros (t.race.toNat + d)
      else if t.raceStatus = .waiting ∧ t.raceWait < d then
        min topMicros (t.race.toNat + (d - t.raceWait))
      else t.race.toNat := by
  unfold elapseRace
  split
  · rename_i h; rw [if_pos h]; exact countRace_race d t
  · rename_i h
    split
    · rename_i hd; simp [h]; omega
    · rename_i hd; simp [h, countRace_race]; omega
  · simp_all
  · simp_all

/-- Race time never falls as time passes. -/
theorem elapseRace_mono (d : Nat) (t : Timebase) : t.race.toNat ≤ (elapseRace d t).race.toNat := by
  rw [elapseRace_race]
  have := t.race.isLt
  unfold topMicros
  split
  · omega
  · split <;> omega

/-- Time that passes leaves every block but the timebase, the cycle processor, the race controller, the link port
and the bulk unit. -/
theorem elapse_frame (d : Nat) (s : State) :
    ∃ t c r l b, elapse d s = ((((s.withTime t).withCyc c).withRace r).withLink l).withBulk b :=
  ⟨_, _, _, _, _, rfl⟩

@[simp] theorem elapse_time (d : Nat) (s : State) : (elapse d s).time = elapseTime d s.time := rfl
@[simp] theorem elapse_ring (d : Nat) (s : State) : (elapse d s).cyc.ring = s.cyc.ring := rfl
@[simp] theorem elapse_link (d : Nat) (s : State) :
    (elapse d s).link =
      { s.link with loop := s.link.loop.map fun f => { f with left := f.left - d } } := rfl
@[simp] theorem elapse_survey (d : Nat) (s : State) : (elapse d s).survey = s.survey := rfl
@[simp] theorem elapse_slots (d : Nat) (s : State) : (elapse d s).slots = s.slots := rfl
@[simp] theorem elapse_seat (d : Nat) (s : State) : (elapse d s).seat = s.seat := rfl
@[simp] theorem elapse_replica (d : Nat) (s : State) : (elapse d s).replica = s.replica := rfl
@[simp] theorem elapse_fieldNumber (d : Nat) (s : State) : (elapse d s).fieldNumber = s.fieldNumber := rfl
@[simp] theorem elapse_dropped (d : Nat) (s : State) : (elapse d s).dropped = s.dropped := rfl
@[simp] theorem elapse_port (d : Nat) (s : State) : (elapse d s).port = s.port := rfl
@[simp] theorem elapse_settings (d : Nat) (s : State) : (elapse d s).settings = s.settings := rfl
@[simp] theorem elapse_freeCount (d : Nat) (s : State) : (elapse d s).freeCount = s.freeCount := rfl
@[simp] theorem elapse_pending (d : Nat) (s : State) : (elapse d s).pending = s.pending := rfl
@[simp] theorem elapse_cars (d : Nat) (s : State) : (elapse d s).race.cars = s.race.cars := rfl
@[simp] theorem elapse_phase (d : Nat) (s : State) : (elapse d s).race.phase = s.race.phase := rfl
@[simp] theorem elapse_finish (d : Nat) (s : State) : (elapse d s).race.finish = s.race.finish := rfl
@[simp] theorem elapse_send (d : Nat) (s : State) : (elapse d s).bulk.send = s.bulk.send := rfl

/-- A timed event takes effect after the time to it, or changes nothing. -/
theorem atInstant_cases (remaining : Option Nat) (act : State → State) (s : State) :
    (remaining = none ∧ atInstant remaining act s = s) ∨
      ∃ d, remaining = some d ∧ atInstant remaining act s = act (elapse d s) := by
  cases remaining with
  | none => exact .inl ⟨rfl, rfl⟩
  | some d => exact .inr ⟨d, rfl, rfl⟩

/-! ## Commands of the cabinet port -/

/-- The frame taken leaves the command FIFO, and nothing else changes. -/
theorem dropFrame_eq (s : State) : dropFrame s = s.withPort { s.port with frames := s.port.frames.tail } := rfl

/-- The tests of a command pass when each of them does. -/
@[simp] theorem firstRefusal_nil : firstRefusal [] = none := rfl

/-- A test that passes is left behind; one that fails gives its reason. -/
@[simp] theorem firstRefusal_cons (ok : Bool) (r : RefusalReason) (l : List (Bool × RefusalReason)) :
    firstRefusal ((ok, r) :: l) = if ok = true then firstRefusal l else some r := rfl

/-- The tests of a list come before those of the list behind it. -/
theorem firstRefusal_append (l m : List (Bool × RefusalReason)) :
    firstRefusal (l ++ m) = (firstRefusal l).or (firstRefusal m) := by
  induction l with
  | nil => simp
  | cons t l ih =>
    obtain ⟨ok, r⟩ := t
    cases ok <;> simp [ih]

/-- A command whose tests pass is acted on. -/
theorem tested_pass {tests : List (Bool × RefusalReason)} (act : State → State × ReplyBody) (s : State)
    (h : firstRefusal tests = none) : tested tests act s = act s := by simp [tested, h]

/-- A command that fails a test is refused, with no other effect. -/
theorem tested_refused {tests : List (Bool × RefusalReason)} {r : RefusalReason}
    (act : State → State × ReplyBody) (s : State) (h : firstRefusal tests = some r) :
    tested tests act s = (s, .refused r) := by simp [tested, h]

/-- A command that can be taken: its frame leaves, it is acted on, and its reply is given. -/
theorem takeCommand_ready (c : Cmd) (act : State → State × ReplyBody) (s : State) (h : canTake s = true) :
    takeCommand c act s = giveReply (.command c) (act (dropFrame s)).2 (act (dropFrame s)).1 := by
  simp [takeCommand, h]

/-- A command that cannot be taken yet changes nothing. -/
theorem takeCommand_wait (c : Cmd) (act : State → State × ReplyBody) (s : State) (h : canTake s = false) :
    takeCommand c act s = s := by simp [takeCommand, h]

/-- A command that is refused takes its frame and gives its reply, and has no other effect. -/
theorem takeCommand_refused (c : Cmd) {tests : State → List (Bool × RefusalReason)} {r : RefusalReason}
    (act : State → State → State × ReplyBody) (s : State) (h : canTake s = true)
    (ht : firstRefusal (tests (dropFrame s)) = some r) :
    takeCommand c (fun s => tested (tests s) (act s) s) s =
      giveReply (.command c) (.refused r) (dropFrame s) := by
  simp [takeCommand, h, tested, ht]

end Sys2Proof.Machine
end

