-- ==== Sys2Proof/Laws/OpsFrames.lean ====
section
/-! SUPPORT. What the shared operations of Machine/Ops.lean leave unchanged, one lemma each. -/

namespace Sys2Proof.Machine

open Sys2Proof

/-- A property of the state that each step of a fold keeps, the fold keeps. -/
theorem foldl_keeps {α β : Type} {f : State → α → State} (g : State → β) (h : ∀ s a, g (f s a) = g s)
    (l : List α) (s : State) : g (l.foldl f s) = g s := by
  induction l generalizing s with
  | nil => rfl
  | cons a l ih => simp [ih, h]

/-- A report placed changes the port alone. -/
@[simp] theorem placeReport_leaves (r : Report) (s : State) :
    (placeReport r s).link = s.link ∧ (placeReport r s).cyc = s.cyc ∧ (placeReport r s).survey = s.survey ∧
      (placeReport r s).time = s.time ∧ (placeReport r s).slots = s.slots ∧ (placeReport r s).race = s.race ∧
      (placeReport r s).seat = s.seat ∧ (placeReport r s).replica = s.replica ∧
      (placeReport r s).fieldNumber = s.fieldNumber ∧ (placeReport r s).dropped = s.dropped ∧
      (placeReport r s).bulk = s.bulk ∧ (placeReport r s).settings = s.settings ∧
      (placeReport r s).freeCount = s.freeCount ∧ (placeReport r s).pending = s.pending := by
  simp [placeReport]

/-- A notice recorded changes the port alone. -/
@[simp] theorem recordNotice_leaves (k : NoticeKind) (s : State) :
    (recordNotice k s).link = s.link ∧ (recordNotice k s).cyc = s.cyc ∧ (recordNotice k s).survey = s.survey ∧
      (recordNotice k s).time = s.time ∧ (recordNotice k s).slots = s.slots ∧
      (recordNotice k s).race = s.race ∧ (recordNotice k s).seat = s.seat ∧
      (recordNotice k s).replica = s.replica ∧ (recordNotice k s).fieldNumber = s.fieldNumber ∧
      (recordNotice k s).dropped = s.dropped ∧ (recordNotice k s).bulk = s.bulk ∧
      (recordNotice k s).settings = s.settings ∧ (recordNotice k s).freeCount = s.freeCount ∧
      (recordNotice k s).pending = s.pending := by
  simp [recordNotice]

/-- An event report changes the port alone. -/
@[simp] theorem queueEvent_leaves (r : Report) (s : State) :
    (queueEvent r s).link = s.link ∧ (queueEvent r s).cyc = s.cyc ∧ (queueEvent r s).survey = s.survey ∧
      (queueEvent r s).time = s.time ∧ (queueEvent r s).slots = s.slots ∧ (queueEvent r s).race = s.race ∧
      (queueEvent r s).seat = s.seat ∧ (queueEvent r s).replica = s.replica ∧
      (queueEvent r s).fieldNumber = s.fieldNumber ∧ (queueEvent r s).dropped = s.dropped ∧
      (queueEvent r s).bulk = s.bulk ∧ (queueEvent r s).settings = s.settings ∧
      (queueEvent r s).freeCount = s.freeCount ∧ (queueEvent r s).pending = s.pending := by
  unfold queueEvent
  (repeat' split) <;> simp

/-- A RING report changes the port alone. -/
@[simp] theorem queueRing_leaves (c : RingCondition) (s : State) :
    (queueRing c s).link = s.link ∧ (queueRing c s).cyc = s.cyc ∧ (queueRing c s).survey = s.survey ∧
      (queueRing c s).time = s.time ∧ (queueRing c s).slots = s.slots ∧ (queueRing c s).race = s.race ∧
      (queueRing c s).seat = s.seat ∧ (queueRing c s).replica = s.replica ∧
      (queueRing c s).fieldNumber = s.fieldNumber ∧ (queueRing c s).dropped = s.dropped ∧
      (queueRing c s).bulk = s.bulk ∧ (queueRing c s).settings = s.settings ∧
      (queueRing c s).freeCount = s.freeCount ∧ (queueRing c s).pending = s.pending := by
  simp [queueRing]

/-- A reply changes the port alone. -/
@[simp] theorem giveReply_leaves (re : ReplyTo) (body : ReplyBody) (s : State) :
    (giveReply re body s).link = s.link ∧ (giveReply re body s).cyc = s.cyc ∧
      (giveReply re body s).survey = s.survey ∧ (giveReply re body s).time = s.time ∧
      (giveReply re body s).slots = s.slots ∧ (giveReply re body s).race = s.race ∧
      (giveReply re body s).seat = s.seat ∧ (giveReply re body s).replica = s.replica ∧
      (giveReply re body s).fieldNumber = s.fieldNumber ∧ (giveReply re body s).dropped = s.dropped ∧
      (giveReply re body s).bulk = s.bulk ∧ (giveReply re body s).settings = s.settings ∧
      (giveReply re body s).freeCount = s.freeCount ∧ (giveReply re body s).pending = s.pending := by
  unfold giveReply
  (repeat' split) <;> simp

/-- A frame taken changes the port alone. -/
@[simp] theorem dropFrame_leaves  (s : State) :
    (dropFrame s).link = s.link ∧ (dropFrame s).cyc = s.cyc ∧ (dropFrame s).survey = s.survey ∧
      (dropFrame s).time = s.time ∧ (dropFrame s).slots = s.slots ∧ (dropFrame s).race = s.race ∧
      (dropFrame s).seat = s.seat ∧ (dropFrame s).replica = s.replica ∧
      (dropFrame s).fieldNumber = s.fieldNumber ∧ (dropFrame s).dropped = s.dropped ∧
      (dropFrame s).bulk = s.bulk ∧ (dropFrame s).settings = s.settings ∧
      (dropFrame s).freeCount = s.freeCount ∧ (dropFrame s).pending = s.pending := by
  simp [dropFrame]

/-- Entering a ring state changes the cycle processor and the link port alone. -/
@[simp] theorem setRing_leaves (r : RingState) (s : State) :
    (setRing r s).survey = s.survey ∧ (setRing r s).time = s.time ∧ (setRing r s).slots = s.slots ∧
      (setRing r s).race = s.race ∧ (setRing r s).seat = s.seat ∧ (setRing r s).replica = s.replica ∧
      (setRing r s).fieldNumber = s.fieldNumber ∧ (setRing r s).dropped = s.dropped ∧
      (setRing r s).bulk = s.bulk ∧ (setRing r s).port = s.port ∧ (setRing r s).settings = s.settings ∧
      (setRing r s).freeCount = s.freeCount ∧ (setRing r s).pending = s.pending := by
  simp [setRing]

/-- A change of the receiver changes the link port and the cabinet port alone. -/
@[simp] theorem setReceiver_leaves (rx : RxState) (fill err : Nat) (s : State) :
    (setReceiver rx fill err s).cyc = s.cyc ∧ (setReceiver rx fill err s).survey = s.survey ∧
      (setReceiver rx fill err s).time = s.time ∧ (setReceiver rx fill err s).slots = s.slots ∧
      (setReceiver rx fill err s).race = s.race ∧ (setReceiver rx fill err s).seat = s.seat ∧
      (setReceiver rx fill err s).replica = s.replica ∧
      (setReceiver rx fill err s).fieldNumber = s.fieldNumber ∧
      (setReceiver rx fill err s).dropped = s.dropped ∧ (setReceiver rx fill err s).bulk = s.bulk ∧
      (setReceiver rx fill err s).settings = s.settings ∧ (setReceiver rx fill err s).freeCount = s.freeCount ∧
      (setReceiver rx fill err s).pending = s.pending := by
  simp [setReceiver]

/-- Frames sent change the link port alone. -/
@[simp] theorem sendFrames_leaves (l : List OutFrame) (s : State) :
    (sendFrames l s).cyc = s.cyc ∧ (sendFrames l s).survey = s.survey ∧ (sendFrames l s).time = s.time ∧
      (sendFrames l s).slots = s.slots ∧ (sendFrames l s).race = s.race ∧ (sendFrames l s).seat = s.seat ∧
      (sendFrames l s).replica = s.replica ∧ (sendFrames l s).fieldNumber = s.fieldNumber ∧
      (sendFrames l s).dropped = s.dropped ∧ (sendFrames l s).bulk = s.bulk ∧ (sendFrames l s).port = s.port ∧
      (sendFrames l s).settings = s.settings ∧ (sendFrames l s).freeCount = s.freeCount ∧
      (sendFrames l s).pending = s.pending := by
  simp [sendFrames]

/-- A frame heard changes the link port alone. -/
@[simp] theorem heard_leaves  (s : State) :
    (heard s).cyc = s.cyc ∧ (heard s).survey = s.survey ∧ (heard s).time = s.time ∧ (heard s).slots = s.slots ∧
      (heard s).race = s.race ∧ (heard s).seat = s.seat ∧ (heard s).replica = s.replica ∧
      (heard s).fieldNumber = s.fieldNumber ∧ (heard s).dropped = s.dropped ∧ (heard s).bulk = s.bulk ∧
      (heard s).port = s.port ∧ (heard s).settings = s.settings ∧ (heard s).freeCount = s.freeCount ∧
      (heard s).pending = s.pending := by
  unfold heard
  split <;> simp

/-- A symbol of a gap changes the link port and the cabinet port alone. -/
@[simp] theorem hearSymbol_leaves (x : GapSymbol) (s : State) :
    (hearSymbol x s).cyc = s.cyc ∧ (hearSymbol x s).survey = s.survey ∧ (hearSymbol x s).time = s.time ∧
      (hearSymbol x s).slots = s.slots ∧ (hearSymbol x s).race = s.race ∧ (hearSymbol x s).seat = s.seat ∧
      (hearSymbol x s).replica = s.replica ∧ (hearSymbol x s).fieldNumber = s.fieldNumber ∧
      (hearSymbol x s).dropped = s.dropped ∧ (hearSymbol x s).bulk = s.bulk ∧
      (hearSymbol x s).settings = s.settings ∧ (hearSymbol x s).freeCount = s.freeCount ∧
      (hearSymbol x s).pending = s.pending := by
  obtain ⟨l, p, h⟩ := hearSymbol_frame x s
  simp [h]

/-- The symbols of a gap change the link port and the cabinet port alone. -/
@[simp] theorem hearGap_leaves (gap : List GapSymbol) (s : State) :
    (hearGap gap s).cyc = s.cyc ∧ (hearGap gap s).survey = s.survey ∧ (hearGap gap s).time = s.time ∧
      (hearGap gap s).slots = s.slots ∧ (hearGap gap s).race = s.race ∧ (hearGap gap s).seat = s.seat ∧
      (hearGap gap s).replica = s.replica ∧ (hearGap gap s).fieldNumber = s.fieldNumber ∧
      (hearGap gap s).dropped = s.dropped ∧ (hearGap gap s).bulk = s.bulk ∧
      (hearGap gap s).settings = s.settings ∧ (hearGap gap s).freeCount = s.freeCount ∧
      (hearGap gap s).pending = s.pending := by
  unfold hearGap
  exact ⟨foldl_keeps State.cyc (fun s a => by simp) _ _,
    foldl_keeps State.survey (fun s a => by simp) _ _,
    foldl_keeps State.time (fun s a => by simp) _ _,
    foldl_keeps State.slots (fun s a => by simp) _ _,
    foldl_keeps State.race (fun s a => by simp) _ _,
    foldl_keeps State.seat (fun s a => by simp) _ _,
    foldl_keeps State.replica (fun s a => by simp) _ _,
    foldl_keeps State.fieldNumber (fun s a => by simp) _ _,
    foldl_keeps State.dropped (fun s a => by simp) _ _,
    foldl_keeps State.bulk (fun s a => by simp) _ _,
    foldl_keeps State.settings (fun s a => by simp) _ _,
    foldl_keeps State.freeCount (fun s a => by simp) _ _,
    foldl_keeps State.pending (fun s a => by simp) _ _⟩

/-- Time that passes changes the timebase, the cycle processor, the race controller, the link port and the bulk unit alone. -/
@[simp] theorem elapse_leaves (d : Nat) (s : State) :
    (elapse d s).survey = s.survey ∧ (elapse d s).slots = s.slots ∧ (elapse d s).seat = s.seat ∧
      (elapse d s).replica = s.replica ∧ (elapse d s).fieldNumber = s.fieldNumber ∧
      (elapse d s).dropped = s.dropped ∧ (elapse d s).port = s.port ∧ (elapse d s).settings = s.settings ∧
      (elapse d s).freeCount = s.freeCount ∧ (elapse d s).pending = s.pending := by
  simp

/-- GO firing changes the timebase and the cabinet port alone. -/
@[simp] theorem fireGo_leaves (g : Micros) (v : Nat) (st : RaceStatus) (s : State) :
    (fireGo g v st s).link = s.link ∧ (fireGo g v st s).cyc = s.cyc ∧ (fireGo g v st s).survey = s.survey ∧
      (fireGo g v st s).slots = s.slots ∧ (fireGo g v st s).race = s.race ∧ (fireGo g v st s).seat = s.seat ∧
      (fireGo g v st s).replica = s.replica ∧ (fireGo g v st s).fieldNumber = s.fieldNumber ∧
      (fireGo g v st s).dropped = s.dropped ∧ (fireGo g v st s).bulk = s.bulk ∧
      (fireGo g v st s).settings = s.settings ∧ (fireGo g v st s).freeCount = s.freeCount ∧
      (fireGo g v st s).pending = s.pending := by
  simp [fireGo]

end Sys2Proof.Machine
end

