-- ==== Sys2Proof/Laws/BulkFrames.lean ====
section
/-! SUPPORT. What the operations of the bulk unit leave unchanged, one lemma each. -/

namespace Sys2Proof.Machine

open Sys2Proof

/-- A send channel set changes the bulk unit alone. -/
@[simp] theorem setChan_leaves (ch : Nat) (c : SendChannel) (s : State) :
    (setChan ch c s).link = s.link ∧ (setChan ch c s).cyc = s.cyc ∧ (setChan ch c s).survey = s.survey ∧
      (setChan ch c s).time = s.time ∧ (setChan ch c s).slots = s.slots ∧ (setChan ch c s).race = s.race ∧
      (setChan ch c s).seat = s.seat ∧ (setChan ch c s).replica = s.replica ∧
      (setChan ch c s).fieldNumber = s.fieldNumber ∧ (setChan ch c s).dropped = s.dropped ∧
      (setChan ch c s).port = s.port ∧ (setChan ch c s).settings = s.settings ∧
      (setChan ch c s).freeCount = s.freeCount ∧ (setChan ch c s).pending = s.pending := by
  simp [setChan]

/-- A segment made ready changes the bulk unit and the arrival order alone. -/
@[simp] theorem makeReady_leaves (ch : Nat) (s : State) :
    (makeReady ch s).link = s.link ∧ (makeReady ch s).cyc = s.cyc ∧ (makeReady ch s).survey = s.survey ∧
      (makeReady ch s).time = s.time ∧ (makeReady ch s).race = s.race ∧ (makeReady ch s).seat = s.seat ∧
      (makeReady ch s).replica = s.replica ∧ (makeReady ch s).fieldNumber = s.fieldNumber ∧
      (makeReady ch s).dropped = s.dropped ∧ (makeReady ch s).port = s.port ∧
      (makeReady ch s).settings = s.settings ∧ (makeReady ch s).freeCount = s.freeCount ∧
      (makeReady ch s).pending = s.pending := by
  unfold makeReady
  try dsimp only
  (repeat' split) <;> simp

/-- A channel that fails changes the bulk unit and the port alone. -/
@[simp] theorem failChannel_leaves (ch : Nat) (why : SendFailure) (s : State) :
    (failChannel ch why s).link = s.link ∧ (failChannel ch why s).cyc = s.cyc ∧
      (failChannel ch why s).survey = s.survey ∧ (failChannel ch why s).time = s.time ∧
      (failChannel ch why s).slots = s.slots ∧ (failChannel ch why s).race = s.race ∧
      (failChannel ch why s).seat = s.seat ∧ (failChannel ch why s).replica = s.replica ∧
      (failChannel ch why s).fieldNumber = s.fieldNumber ∧ (failChannel ch why s).dropped = s.dropped ∧
      (failChannel ch why s).settings = s.settings ∧ (failChannel ch why s).freeCount = s.freeCount ∧
      (failChannel ch why s).pending = s.pending := by
  simp [failChannel]

/-- A channel that is done changes the bulk unit and the port alone. -/
@[simp] theorem completeChannel_leaves (ch : Nat) (s : State) :
    (completeChannel ch s).link = s.link ∧ (completeChannel ch s).cyc = s.cyc ∧
      (completeChannel ch s).survey = s.survey ∧ (completeChannel ch s).time = s.time ∧
      (completeChannel ch s).slots = s.slots ∧ (completeChannel ch s).race = s.race ∧
      (completeChannel ch s).seat = s.seat ∧ (completeChannel ch s).replica = s.replica ∧
      (completeChannel ch s).fieldNumber = s.fieldNumber ∧ (completeChannel ch s).dropped = s.dropped ∧
      (completeChannel ch s).settings = s.settings ∧ (completeChannel ch s).freeCount = s.freeCount ∧
      (completeChannel ch s).pending = s.pending := by
  simp [completeChannel]

/-- An accepted segment changes the bulk unit, the arrival order and the port alone. -/
@[simp] theorem segmentAccepted_leaves (ch count : Nat) (p : List Byte) (s : State) :
    (segmentAccepted ch count p s).link = s.link ∧ (segmentAccepted ch count p s).cyc = s.cyc ∧
      (segmentAccepted ch count p s).survey = s.survey ∧ (segmentAccepted ch count p s).time = s.time ∧
      (segmentAccepted ch count p s).race = s.race ∧ (segmentAccepted ch count p s).seat = s.seat ∧
      (segmentAccepted ch count p s).replica = s.replica ∧
      (segmentAccepted ch count p s).fieldNumber = s.fieldNumber ∧
      (segmentAccepted ch count p s).dropped = s.dropped ∧
      (segmentAccepted ch count p s).settings = s.settings ∧
      (segmentAccepted ch count p s).freeCount = s.freeCount ∧
      (segmentAccepted ch count p s).pending = s.pending := by
  unfold segmentAccepted
  try dsimp only
  (repeat' split) <;> simp

/-- An outcome at a channel changes the bulk unit, the arrival order and the port alone. -/
@[simp] theorem bulkOutcome_leaves (ch : Nat) (o : MsgOutcome) (s : State) :
    (bulkOutcome ch o s).link = s.link ∧ (bulkOutcome ch o s).cyc = s.cyc ∧
      (bulkOutcome ch o s).survey = s.survey ∧ (bulkOutcome ch o s).time = s.time ∧
      (bulkOutcome ch o s).race = s.race ∧ (bulkOutcome ch o s).seat = s.seat ∧
      (bulkOutcome ch o s).replica = s.replica ∧ (bulkOutcome ch o s).fieldNumber = s.fieldNumber ∧
      (bulkOutcome ch o s).dropped = s.dropped ∧ (bulkOutcome ch o s).settings = s.settings ∧
      (bulkOutcome ch o s).freeCount = s.freeCount ∧ (bulkOutcome ch o s).pending = s.pending := by
  unfold bulkOutcome
  try dsimp only
  (repeat' split) <;> simp

/-- A channel failed if ACTIVE changes the bulk unit and the port alone. -/
@[simp] theorem failIfActive_leaves (why : SendFailure) (ch : Nat) (s : State) :
    (failIfActive why ch s).link = s.link ∧ (failIfActive why ch s).cyc = s.cyc ∧
      (failIfActive why ch s).survey = s.survey ∧ (failIfActive why ch s).time = s.time ∧
      (failIfActive why ch s).slots = s.slots ∧ (failIfActive why ch s).race = s.race ∧
      (failIfActive why ch s).seat = s.seat ∧ (failIfActive why ch s).replica = s.replica ∧
      (failIfActive why ch s).fieldNumber = s.fieldNumber ∧ (failIfActive why ch s).dropped = s.dropped ∧
      (failIfActive why ch s).settings = s.settings ∧ (failIfActive why ch s).freeCount = s.freeCount ∧
      (failIfActive why ch s).pending = s.pending := by
  unfold failIfActive
  try dsimp only
  (repeat' split) <;> simp

/-- The ACTIVE channels failed change the bulk unit and the port alone. -/
@[simp] theorem failActive_leaves (why : SendFailure) (s : State) :
    (failActive why s).link = s.link ∧ (failActive why s).cyc = s.cyc ∧ (failActive why s).survey = s.survey ∧
      (failActive why s).time = s.time ∧ (failActive why s).slots = s.slots ∧
      (failActive why s).race = s.race ∧ (failActive why s).seat = s.seat ∧
      (failActive why s).replica = s.replica ∧ (failActive why s).fieldNumber = s.fieldNumber ∧
      (failActive why s).dropped = s.dropped ∧ (failActive why s).settings = s.settings ∧
      (failActive why s).freeCount = s.freeCount ∧ (failActive why s).pending = s.pending := by
  simp [failActive]

/-- A receive entry set changes the bulk unit alone. -/
@[simp] theorem setRecv_leaves (i : Nat) (e : Option ReceiveEntry) (s : State) :
    (setRecv i e s).link = s.link ∧ (setRecv i e s).cyc = s.cyc ∧ (setRecv i e s).survey = s.survey ∧
      (setRecv i e s).time = s.time ∧ (setRecv i e s).slots = s.slots ∧ (setRecv i e s).race = s.race ∧
      (setRecv i e s).seat = s.seat ∧ (setRecv i e s).replica = s.replica ∧
      (setRecv i e s).fieldNumber = s.fieldNumber ∧ (setRecv i e s).dropped = s.dropped ∧
      (setRecv i e s).port = s.port ∧ (setRecv i e s).settings = s.settings ∧
      (setRecv i e s).freeCount = s.freeCount ∧ (setRecv i e s).pending = s.pending := by
  simp [setRecv]

/-- A receive entry closed changes the bulk unit and the port alone. -/
@[simp] theorem closeRecv_leaves (i : Nat) (why : ReceiveFailure) (s : State) :
    (closeRecv i why s).link = s.link ∧ (closeRecv i why s).cyc = s.cyc ∧
      (closeRecv i why s).survey = s.survey ∧ (closeRecv i why s).time = s.time ∧
      (closeRecv i why s).slots = s.slots ∧ (closeRecv i why s).race = s.race ∧
      (closeRecv i why s).seat = s.seat ∧ (closeRecv i why s).replica = s.replica ∧
      (closeRecv i why s).fieldNumber = s.fieldNumber ∧ (closeRecv i why s).dropped = s.dropped ∧
      (closeRecv i why s).settings = s.settings ∧ (closeRecv i why s).freeCount = s.freeCount ∧
      (closeRecv i why s).pending = s.pending := by
  unfold closeRecv
  try dsimp only
  (repeat' split) <;> simp

/-- The receive entries closed change the bulk unit and the port alone. -/
@[simp] theorem closeAllRing_leaves  (s : State) :
    (closeAllRing s).link = s.link ∧ (closeAllRing s).cyc = s.cyc ∧ (closeAllRing s).survey = s.survey ∧
      (closeAllRing s).time = s.time ∧ (closeAllRing s).slots = s.slots ∧ (closeAllRing s).race = s.race ∧
      (closeAllRing s).seat = s.seat ∧ (closeAllRing s).replica = s.replica ∧
      (closeAllRing s).fieldNumber = s.fieldNumber ∧ (closeAllRing s).dropped = s.dropped ∧
      (closeAllRing s).settings = s.settings ∧ (closeAllRing s).freeCount = s.freeCount ∧
      (closeAllRing s).pending = s.pending := by
  unfold closeAllRing
  exact ⟨foldl_keeps State.link (fun s a => by simp) _ _,
    foldl_keeps State.cyc (fun s a => by simp) _ _,
    foldl_keeps State.survey (fun s a => by simp) _ _,
    foldl_keeps State.time (fun s a => by simp) _ _,
    foldl_keeps State.slots (fun s a => by simp) _ _,
    foldl_keeps State.race (fun s a => by simp) _ _,
    foldl_keeps State.seat (fun s a => by simp) _ _,
    foldl_keeps State.replica (fun s a => by simp) _ _,
    foldl_keeps State.fieldNumber (fun s a => by simp) _ _,
    foldl_keeps State.dropped (fun s a => by simp) _ _,
    foldl_keeps State.settings (fun s a => by simp) _ _,
    foldl_keeps State.freeCount (fun s a => by simp) _ _,
    foldl_keeps State.pending (fun s a => by simp) _ _⟩

/-- A segment taken changes the bulk unit and the port alone. -/
@[simp] theorem takeSegment_leaves (i : Nat) (e : ReceiveEntry) (data : List Byte) (endMark : Bool) (s : State) :
    ((takeSegment i e data endMark s).1).link = s.link ∧ ((takeSegment i e data endMark s).1).cyc = s.cyc ∧
      ((takeSegment i e data endMark s).1).survey = s.survey ∧
      ((takeSegment i e data endMark s).1).time = s.time ∧
      ((takeSegment i e data endMark s).1).slots = s.slots ∧
      ((takeSegment i e data endMark s).1).race = s.race ∧ ((takeSegment i e data endMark s).1).seat = s.seat ∧
      ((takeSegment i e data endMark s).1).replica = s.replica ∧
      ((takeSegment i e data endMark s).1).fieldNumber = s.fieldNumber ∧
      ((takeSegment i e data endMark s).1).dropped = s.dropped ∧
      ((takeSegment i e data endMark s).1).settings = s.settings ∧
      ((takeSegment i e data endMark s).1).freeCount = s.freeCount ∧
      ((takeSegment i e data endMark s).1).pending = s.pending := by
  unfold takeSegment
  try dsimp only
  (repeat' split) <;> simp

/-- A restarted entry closed changes the bulk unit and the port alone. -/
@[simp] theorem closeRestarted_leaves (i : Nat) (e : ReceiveEntry) (seg : Report) (s : State) :
    (closeRestarted i e seg s).link = s.link ∧ (closeRestarted i e seg s).cyc = s.cyc ∧
      (closeRestarted i e seg s).survey = s.survey ∧ (closeRestarted i e seg s).time = s.time ∧
      (closeRestarted i e seg s).slots = s.slots ∧ (closeRestarted i e seg s).race = s.race ∧
      (closeRestarted i e seg s).seat = s.seat ∧ (closeRestarted i e seg s).replica = s.replica ∧
      (closeRestarted i e seg s).fieldNumber = s.fieldNumber ∧ (closeRestarted i e seg s).dropped = s.dropped ∧
      (closeRestarted i e seg s).settings = s.settings ∧ (closeRestarted i e seg s).freeCount = s.freeCount ∧
      (closeRestarted i e seg s).pending = s.pending := by
  unfold closeRestarted
  try dsimp only
  (repeat' split) <;> simp

/-- A first segment changes the bulk unit and the port alone. -/
@[simp] theorem openSegment_leaves (source channel total : Nat) (data : List Byte) (endMark : Bool) (s : State) :
    ((openSegment source channel total data endMark s).1).link = s.link ∧
      ((openSegment source channel total data endMark s).1).cyc = s.cyc ∧
      ((openSegment source channel total data endMark s).1).survey = s.survey ∧
      ((openSegment source channel total data endMark s).1).time = s.time ∧
      ((openSegment source channel total data endMark s).1).slots = s.slots ∧
      ((openSegment source channel total data endMark s).1).race = s.race ∧
      ((openSegment source channel total data endMark s).1).seat = s.seat ∧
      ((openSegment source channel total data endMark s).1).replica = s.replica ∧
      ((openSegment source channel total data endMark s).1).fieldNumber = s.fieldNumber ∧
      ((openSegment source channel total data endMark s).1).dropped = s.dropped ∧
      ((openSegment source channel total data endMark s).1).settings = s.settings ∧
      ((openSegment source channel total data endMark s).1).freeCount = s.freeCount ∧
      ((openSegment source channel total data endMark s).1).pending = s.pending := by
  unfold openSegment
  try dsimp only
  (repeat' split) <;> simp

/-- A BULK SEGMENT at its destination changes the bulk unit and the port alone. -/
@[simp] theorem segmentAt_leaves (source : Nat) (p : List Byte) (s : State) :
    ((segmentAt source p s).1).link = s.link ∧ ((segmentAt source p s).1).cyc = s.cyc ∧
      ((segmentAt source p s).1).survey = s.survey ∧ ((segmentAt source p s).1).time = s.time ∧
      ((segmentAt source p s).1).slots = s.slots ∧ ((segmentAt source p s).1).race = s.race ∧
      ((segmentAt source p s).1).seat = s.seat ∧ ((segmentAt source p s).1).replica = s.replica ∧
      ((segmentAt source p s).1).fieldNumber = s.fieldNumber ∧ ((segmentAt source p s).1).dropped = s.dropped ∧
      ((segmentAt source p s).1).settings = s.settings ∧ ((segmentAt source p s).1).freeCount = s.freeCount ∧
      ((segmentAt source p s).1).pending = s.pending := by
  unfold segmentAt
  try dsimp only
  (repeat' split) <;> simp

/-- A BULK ABORT at its destination changes the bulk unit and the port alone. -/
@[simp] theorem abortAt_leaves (source : Nat) (p : List Byte) (s : State) :
    ((abortAt source p s).1).link = s.link ∧ ((abortAt source p s).1).cyc = s.cyc ∧
      ((abortAt source p s).1).survey = s.survey ∧ ((abortAt source p s).1).time = s.time ∧
      ((abortAt source p s).1).slots = s.slots ∧ ((abortAt source p s).1).race = s.race ∧
      ((abortAt source p s).1).seat = s.seat ∧ ((abortAt source p s).1).replica = s.replica ∧
      ((abortAt source p s).1).fieldNumber = s.fieldNumber ∧ ((abortAt source p s).1).dropped = s.dropped ∧
      ((abortAt source p s).1).settings = s.settings ∧ ((abortAt source p s).1).freeCount = s.freeCount ∧
      ((abortAt source p s).1).pending = s.pending := by
  unfold abortAt
  try dsimp only
  (repeat' split) <;> simp

end Sys2Proof.Machine
end

