-- ==== Sys2Proof/Laws/Bytes.lean ====
section
/-! SUPPORT. Byte strings, symbols and checks: what the parts of a frame read back as. -/

namespace Sys2Proof.Machine

open Sys2Proof

/-- The bytes of a number: as many as asked for. -/
@[simp] theorem length_beBytes (n v : Nat) : (beBytes n v).length = n := by
  induction n with
  | zero => rfl
  | succ n ih => simp [beBytes, ih]

/-- A byte string read from a start value: the start is shifted up by the string's length. -/
theorem foldl_beNat (b : List Byte) (v : Nat) :
    b.foldl (fun v b => v * 256 + b.toNat) v = v * 256 ^ b.length + beNat b := by
  induction b generalizing v with
  | nil => simp [beNat]
  | cons x b ih =>
    simp only [List.foldl_cons, List.length_cons, beNat]
    rw [ih, ih (0 * 256 + x.toNat)]
    ring

/-- A byte string: its first byte above the others. -/
theorem beNat_cons (x : Byte) (b : List Byte) : beNat (x :: b) = x.toNat * 256 ^ b.length + beNat b := by
  simp only [beNat, List.foldl_cons]
  rw [foldl_beNat]
  simp [beNat]

/-- The bytes of a number spell the number, modulo what the bytes hold. -/
theorem beNat_beBytes (n v : Nat) : beNat (beBytes n v) = v % 256 ^ n := by
  induction n with
  | zero => simp [beBytes, beNat, Nat.mod_one]
  | succ n ih =>
    have h : v % (256 ^ n * 256) = v % 256 ^ n + 256 ^ n * (v / 256 ^ n % 256) := Nat.mod_mul
    rw [beBytes, beNat_cons, length_beBytes, ih, BitVec.toNat_ofNat, pow_succ 256 n, h]
    norm_num
    ring

/-- Symbols made of bytes give the bytes back. -/
@[simp] theorem bytesOf_toSymbols (b : List Byte) : bytesOf (toSymbols b) = some b := by
  induction b with
  | nil => rfl
  | cons x b ih =>
    simp only [toSymbols, List.map_cons, bytesOf] at ih ⊢
    simp [ih]

/-- A part with its check is two bytes longer. -/
@[simp] theorem length_withCheck (b : List Byte) : (withCheck b).length = b.length + 2 := by
  simp [withCheck]

/-- A part written with its check is read as a good part. -/
theorem goodPart_withCheck (n : Nat) (b : List Byte) (h : b.length + 2 = n) :
    goodPart n (toSymbols (withCheck b)) = some (withCheck b) := by
  subst h
  have hc := (check b).isLt
  simp only [goodPart, toSymbols, List.length_map, length_withCheck, if_true]
  have : bytesOf ((withCheck b).map RxSym.data) = some (withCheck b) := bytesOf_toSymbols _
  rw [this]
  have h1 : (withCheck b).drop (b.length + 2 - 2) = beBytes 2 (check b).toNat := by simp [withCheck]
  have h2 : (withCheck b).take (b.length + 2 - 2) = b := by simp [withCheck]
  simp only [h1, h2, beNat_beBytes]
  simp [Nat.mod_eq_of_lt hc]

/-- A header is 64 bytes. -/
theorem length_headerBytes (h : Header) (hs : h.summary.length = 8) : (headerBytes h).length = 64 := by
  have hf (l : List CarSummary) : (l.flatMap summaryBytes).length = 2 * l.length := by
    induction l with
    | nil => rfl
    | cons c l ih => simp only [List.flatMap_cons, List.length_append, ih, List.length_cons, summaryBytes]; simp; omega
  have h6 (f : Nat → Nat) : ((List.range 6).flatMap fun i => beBytes 1 (f i)).length = 6 := rfl
  have h11 (f : Nat → Nat) : ((List.range 11).flatMap fun i => beBytes 1 (f i)).length = 11 := rfl
  simp only [headerBytes, length_withCheck, List.length_append, length_beBytes, hf, hs, h6, h11]

/-- A header written with its check is read by its layout. -/
theorem parseHeader_headerBytes (h : Header) (hs : h.summary.length = 8) :
    parseHeader (toSymbols (headerBytes h)) = decodeHeader (headerBytes h) := by
  have hl := length_headerBytes h hs
  unfold headerBytes at hl ⊢
  rw [length_withCheck] at hl
  simp only [parseHeader, goodPart_withCheck 64 _ hl]

/-- A part with a code error, or of another length, is no good part. -/
theorem goodPart_codeError (n : Nat) (syms : List RxSym) (h : bytesOf syms = none) : goodPart n syms = none := by
  unfold goodPart
  split
  · rw [h]
  · rfl

end Sys2Proof.Machine
end

