-- ==== Sys2Proof/Laws/Collect.lean ====
section
/-! SUPPORT. A collect frame at a node, said once: what `nodeCollect` can do with it, and what it leaves unchanged. -/

namespace Sys2Proof.Machine

open Sys2Proof

/-- A part whose check is good is the bytes received. -/
theorem goodPart_bytesOf {n : Nat} {syms : List RxSym} {b : List Byte} (h : goodPart n syms = some b) :
    bytesOf syms = some b := by
  unfold goodPart at h
  split at h
  · split at h
    · cases h
    · split at h <;> simp_all
  · cases h

/-- The bytes of a collect header that reads as `h`. -/
theorem parseCollectHeader_bytesOf {syms : List RxSym} {h : CollectHeader} (hp : parseCollectHeader syms = some h) :
    ∃ b, bytesOf syms = some b ∧ decodeCollectHeader b = some h := by
  unfold parseCollectHeader at hp
  split at hp
  · cases hp
  · exact ⟨_, goodPart_bytesOf ‹_›, hp⟩

/-- A collect frame is whole when END ended it and its length covers the entries that its header counts (R4). -/
@[simp] theorem collectWhole_iff (ended : Bool) (h : CollectHeader) (syms : List RxSym) :
    collectWhole ended h syms = true ↔ ended = true ∧ 13 + 15 * h.count ≤ syms.length := by
  simp [collectWhole]

/-- Everything a node can do with a collect frame: pass on one whose header fails; mark a full one; append its
entry to a whole one and record the epoch; leave a short one ended at the same byte (R4, R10, R28). -/
theorem nodeCollect_cases (ended : Bool) (syms : List RxSym) (s : State) :
    let heardAgain := s.withCyc { s.cyc with silence := some 0 }
    (parseCollectHeader (syms.take 13) = none ∧ nodeCollect ended syms s = (syms, s)) ∨
    ∃ h b, parseCollectHeader (syms.take 13) = some h ∧ bytesOf (syms.take 13) = some b ∧
      ((12 ≤ h.count ∧
          nodeCollect ended syms s = (toSymbols (setOverflow b) ++ syms.drop 13, heardAgain)) ∨
       (h.count < 12 ∧ collectWhole ended h syms = true ∧
          nodeCollect ended syms s =
            (toSymbols (raiseCount b h.count) ++ syms.drop 13 ++ toSymbols (entryBytes (ownEntry s)),
              recordSurveyed h.epoch heardAgain)) ∨
       (h.count < 12 ∧ collectWhole ended h syms = false ∧
          nodeCollect ended syms s = (toSymbols (raiseCount b h.count) ++ syms.drop 13, heardAgain))) := by
  intro heardAgain
  cases hp : parseCollectHeader (syms.take 13) with
  | none => exact .inl ⟨rfl, by simp [nodeCollect, hp]⟩
  | some h =>
    obtain ⟨b, hb, -⟩ := parseCollectHeader_bytesOf hp
    refine .inr ⟨h, b, rfl, hb, ?_⟩
    by_cases hf : 12 ≤ h.count
    · exact .inl ⟨hf, by simp [nodeCollect, hp, hb, hf, heardAgain]⟩
    · cases hw : collectWhole ended h syms with
      | true => exact .inr (.inl ⟨by omega, rfl, by simp [nodeCollect, hp, hb, hf, hw, heardAgain]⟩)
      | false => exact .inr (.inr ⟨by omega, rfl, by simp [nodeCollect, hp, hb, hf, hw, heardAgain]⟩)

/-- A short collect frame leaves the survey unit and the mapped epoch as they are (R4, R28). -/
theorem nodeCollect_short_keeps_epochs (ended : Bool) (syms : List RxSym) (s : State)
    (hs : ∀ h, parseCollectHeader (syms.take 13) = some h → collectWhole ended h syms = false) :
    (nodeCollect ended syms s).2.survey = s.survey ∧
      (nodeCollect ended syms s).2.cyc.mappedEpoch = s.cyc.mappedEpoch := by
  obtain ⟨-, e⟩ | ⟨h, b, hp, -, ⟨-, e⟩ | ⟨-, hw, -⟩ | ⟨-, -, e⟩⟩ := nodeCollect_cases ended syms s
  · simp [e]
  · simp [e]
  · simp [hs h hp] at hw
  · simp [e]

end Sys2Proof.Machine
end

