-- ==== Sys2Proof/Laws/Outcomes.lean ====
section
/-! SUPPORT. What an outcome does at the source, and what a copy of CLEAR STATIONS does, said once as the statements
say it (`Settled`, `CopiesClear`); and how the report of an event moves past an update of another block. -/

namespace Sys2Proof.Machine

open Sys2Proof Sys2Proof.Safety

/-! ## The report of an event -/

/-- An event's report changes the port alone. -/
theorem queueEvent_eq_port (r : Report) (s : State) : queueEvent r s = { s with port := (queueEvent r s).port } := by
  have h := queueEvent_leaves r s
  cases hq : queueEvent r s
  simp_all

/-- What the port becomes depends on the port alone. -/
theorem queueEvent_port (r : Report) (s t : State) (h : s.port = t.port) :
    (queueEvent r s).port = (queueEvent r t).port := by
  have hf : roomFor s r = roomFor t r := by
    have : reportFree s = reportFree t := by unfold reportFree; rw [h]
    simp [roomFor, this]
  unfold queueEvent
  split
  · exact h
  · rw [hf, h]
    split <;> simp [placeReport, recordNotice, State.withPort, h]

/-- The report of an event at a state with the port of another. -/
theorem queueEvent_of_port (r : Report) (s t : State) (h : s.port = t.port) :
    queueEvent r s = { s with port := (queueEvent r t).port } := by
  rw [queueEvent_eq_port, queueEvent_port r s t h]

/-! ## Outcomes at the source (R74, R103, R105, R155) -/

/-- The car that an outcome names, by cases of its payload. -/
theorem namedCar_eq (out : MsgOutcome) : namedCar out =
    match out with
    | .accepted (b :: _) => if b.toNat < 8 then some b.toNat else none
    | .accepted [] => none
    | .declined _ => none
    | .lost => none := by
  cases out with
  | accepted p => cases p <;> rfl
  | declined _ => rfl
  | lost => rfl

/-- A seat record after a JOIN outcome, by the record and the car named. -/
theorem seatAfterJoin_eq (out : MsgOutcome) (r : SeatRecord) : seatAfterJoin out r =
    match r, namedCar out with
    | .requested w, some c => .seated c w
    | .requested _, none => .unseated
    | r, _ => r := by
  unfold seatAfterJoin
  cases r <;> cases namedCar out <;> rfl

/-- A send channel set is the one then read. -/
theorem chanAt_setChan (ch : Nat) (x : SendChannel) (s : State) (hch : ch = 1 ∨ ch = 2) (hl : s.bulk.send.length = 2) :
    chanAt (setChan ch x s) ch = x := by
  simp only [chanAt, setChan, State.withBulk]
  rcases hch with rfl | rfl <;> simp [List.getD_eq_getElem?_getD, hl]

/-- A report queued before a channel is set may be queued after it. -/
theorem setChan_queueEvent (ch : Nat) (x y : SendChannel) (r : Report) (s : State) :
    setChan ch y (queueEvent r (setChan ch x s)) = queueEvent r (setChan ch y s) := by
  rw [queueEvent_of_port r (setChan ch x s) s rfl, queueEvent_of_port r (setChan ch y s) s rfl]
  simp [setChan, State.withBulk]

/-- The channel read behind a report. -/
theorem chanAt_queueEvent (ch : Nat) (r : Report) (s : State) : chanAt (queueEvent r s) ch = chanAt s ch := by
  simp [chanAt]

/-- A channel made ready depends on a report queued before no more than its port does. -/
theorem makeReady_queueEvent (ch : Nat) (r : Report) (s : State) :
    makeReady ch (queueEvent r s) = queueEvent r (makeReady ch s) := by
  have hp : (makeReady ch s).port = s.port := by unfold makeReady; simp only; split <;> rfl
  rw [queueEvent_of_port r (makeReady ch s) s hp, queueEvent_eq_port r s]
  have hc : chanAt { s with port := (queueEvent r s).port } ch = chanAt s ch := rfl
  unfold makeReady
  simp only [hc]
  by_cases h : ((chanAt s ch).ready.isNone && (segmentReady (chanAt s ch) || abortReady (chanAt s ch))) = true
  · rw [if_pos h, if_pos h]; rfl
  · rw [if_neg h, if_neg h]

/-- The ACTIVE channel after an ACCEPTED segment that leaves bytes to send. -/
theorem makeReady_accepted (ch left : Nat) (c : SendChannel) (s : State) (ha : c.state = .active)
    (hch : ch = 1 ∨ ch = 2) (hl : s.bulk.send.length = 2) :
    let full := c.ready = none ∧ (c.abortPending = true ∨ min 20 left ≤ c.buffer.length)
    makeReady ch (setChan ch { c with remaining := left, out := none } s) =
      { setChan ch { c with remaining := left, out := none,
                            ready := if full then some s.slots.arrival else c.ready } s with
        slots := { s.slots with arrival := if full then s.slots.arrival + 1 else s.slots.arrival } } := by
  intro full
  simp only [makeReady, chanAt_setChan ch _ s hch hl]
  by_cases hr : c.ready = none
  · rcases Bool.eq_false_or_eq_true c.abortPending with hp | hp <;>
      by_cases hb : min 20 left ≤ c.buffer.length <;>
      simp [full, hr, hp, hb, segmentReady, abortReady, armed, ha, setChan, State.withBulk, State.withSlots]
  · have : c.ready.isNone = false := by cases h : c.ready <;> simp_all
    simp [full, hr, this, setChan, State.withBulk]

/-- An outstanding entry that ends with an outcome is settled: everything that `endEntry` can do. -/
theorem endEntry_settled (o : Outstanding) (out : MsgOutcome) (s : State) : Settled o out s (endEntry o out s) := by
  unfold Settled
  intro u report named seatsAfter seats
  have hn : namedCar out = named := namedCar_eq out
  refine ⟨?_, ?_, ?_, ?_, ?_⟩
  · intro hk
    have e : endEntry o out s = outcomeReport o out u := by
      unfold endEntry settleEntry
      rcases hk with h | h | h | h <;> rw [h] <;> rfl
    rw [e]
    unfold outcomeReport
    constructor
    · intro hr
      have : roomFor u report = true := decide_eq_true hr
      show (if roomFor u report then _ else _) = _
      rw [this]; rfl
    · intro hr
      have : roomFor u report = false := decide_eq_false (Nat.not_le.mpr hr)
      show (if roomFor u report then _ else _) = _
      rw [this]; rfl
  · intro hk; simp [endEntry, settleEntry, hk]; rfl
  · intro hk
    simp only [endEntry, settleEntry, hk, joinOutcome, queueSeats, setSeat, seatAfterJoin_eq, hn]; rfl
  · intro hk
    simp only [endEntry, settleEntry, hk, leaveOutcome, queueSeats, hn]; rfl
  · intro hk
    refine ⟨?_, ?_⟩
    · intro hc; rcases hk with h | h <;> simp [endEntry, settleEntry, h, hc] <;> rfl
    · intro ch hc hch hl c after failed
      have e : endEntry o out s = bulkOutcome ch out u := by
        rcases hk with h | h <;> simp [endEntry, settleEntry, h, hc] <;> rfl
      have hcu : chanAt u ch = c := rfl
      have hlu : u.bulk.send.length = 2 := hl
      rw [e]
      unfold bulkOutcome
      rw [hcu]
      refine ⟨?_, ?_, ?_⟩
      · rintro (h | h) <;> simp [h]
      · intro ha hb; simp [ha, hb, failChannel, hcu]; rfl
      · intro ha n count hb
        rw [if_pos ha, hb]
        refine ⟨?_, ?_, ?_⟩
        · rintro w rfl; rfl
        · rintro rfl; rfl
        · rintro p rfl
          have ready := makeReady_accepted ch (c.remaining - count) c u ha hch hlu
          intro left told full
          simp only [segmentAccepted, hcu]
          constructor
          · intro h0
            have hz : c.remaining - count = 0 := h0
            rw [if_pos hz]
            rcases Bool.eq_false_or_eq_true c.optEach with he | he <;>
              simp only [completeChannel, chanAt_queueEvent, chanAt_setChan ch _ u hch hlu, setChan_queueEvent, he, hz,
                Bool.false_eq_true, if_false, if_true] <;>
              simp [told, left, hz, he, setChan, State.withBulk, after, u]
          · intro h0
            rw [if_neg h0]
            rcases Bool.eq_false_or_eq_true c.optEach with he | he
            · rw [if_pos he, makeReady_queueEvent, ready]
              simp only [told, if_pos he]; rfl
            · rw [if_neg (by simp [he]), ready]
              simp only [told, if_neg (show ¬ c.optEach = true by simp [he])]; rfl

/-! ## A copy of CLEAR STATIONS (R112, R124) -/

/-- A list of 8 entries with every entry cleared. -/
theorem clear_eight (l : List ReplicaEntry) (h : l.length = 8) :
    (List.range 8).foldl (fun l c => l.set c ReplicaEntry.empty) l = List.replicate 8 ReplicaEntry.empty := by
  obtain ⟨a, b, c, d, e, f, g, i, rfl⟩ : ∃ a b c d e f g i, l = [a, b, c, d, e, f, g, i] := by
    rcases l with _ | ⟨a, _ | ⟨b, _ | ⟨c, _ | ⟨d, _ | ⟨e, _ | ⟨f, _ | ⟨g, _ | ⟨i, _ | ⟨j, l⟩⟩⟩⟩⟩⟩⟩⟩⟩ <;>
      simp at h
    exact ⟨_, _, _, _, _, _, _, _, rfl⟩
  rfl

/-- Entries cleared one by one, written out. -/
theorem foldl_clearEntry (places : List Nat) (s : State) :
    places.foldl (fun s c => clearEntry c s) s =
      { s with
        replica := places.foldl (fun l c => l.set c ReplicaEntry.empty) s.replica,
        time := { s.time with computation := s.time.computation.map fun k =>
          { k with live := places.foldl (fun l c => l.set c false) k.live } } } := by
  induction places generalizing s with
  | nil => cases h : s.time.computation <;> simp [← h]
  | cons c places ih =>
    rw [List.foldl_cons, ih]
    cases h : s.time.computation <;> simp [clearEntry, forgetEntry, State.withReplica, State.withTime, h]

/-- The store cleared, written out. -/
theorem clearReplica_eq (s : State) (h : s.replica.length = 8) :
    clearReplica s =
      { s with
        replica := List.replicate 8 ReplicaEntry.empty,
        time := { s.time with computation := s.time.computation.map fun k =>
          { k with live := (List.range 8).foldl (fun l c => l.set c false) k.live } } } := by
  rw [clearReplica, foldl_clearEntry, clear_eight s.replica h]

/-- After a clear, no entry is live in the field computation in progress. -/
theorem cleared_live (l : List Bool) (c : Nat) (h : c < 8) :
    ((List.range 8).foldl (fun l c => l.set c false) l).getD c false = false := by
  simp only [List.range, List.range.loop, List.foldl, List.getD_eq_getElem?_getD, List.getElem?_set, List.length_set]
  obtain rfl | rfl | rfl | rfl | rfl | rfl | rfl | rfl :
    c = 0 ∨ c = 1 ∨ c = 2 ∨ c = 3 ∨ c = 4 ∨ c = 5 ∨ c = 6 ∨ c = 7 := by omega
  all_goals simp
  all_goals split <;> simp

/-- A copy of CLEAR STATIONS: everything that it can do. -/
theorem clearStationsCopy_clears (s : State) : CopiesClear s (clearStationsCopy s) := by
  intro hl
  have e := clearReplica_eq (s.withSeat { s.seat with ready := false, attentionPending := false }) hl
  refine ⟨clearReplica (s.withSeat { s.seat with ready := false, attentionPending := false }), ?_, ?_, ?_, ?_⟩
  · unfold clearStationsCopy queueSeats; rw [e]; rfl
  · rw [e]; rfl
  · intro h; rw [e]; simp [State.withSeat, h]
  · intro k h
    rw [e]
    exact ⟨(List.range 8).foldl (fun l c => l.set c false) k.live, by simp [State.withSeat, h],
      fun c hc => cleared_live _ c hc⟩

end Sys2Proof.Machine
end

