-- ==== Sys2Proof/Laws/PerInstr.lean ====
section
/-! SUPPORT. The family of per-command statements: how each command's syntax places it between the commands of the
cabinet port and the events and frames. -/

namespace Sys2Proof.Laws.F

open Sys2Proof Sys2Proof.Machine Sys2Proof.Safety

/-- A command is one or the other: an event or a frame, which has no length test; or a command of the cabinet port,
which a code can name and whose frames are read as that command, whatever their arguments (R163, log entry 8). -/
def Statement (i : Instr) : Prop :=
  (portCommand i = none → frameFits i = true) ∧
    ∀ k, portCommand i = some k → k ∈ allCommands ∧ ∀ args, portCommand (parseCommand k args) = some k

/-- Every cabinet command is among those that a code can name. -/
theorem mem_allCommands (k : Cmd) : k ∈ allCommands := by cases k <;> decide

/-- The frame of a command is read as that command. -/
theorem portCommand_parseCommand (k : Cmd) (args : List Byte) :
    portCommand (parseCommand k args) = some k := by cases k <;> rfl

/-- An event or a frame meets the statement. -/
theorem ofEvent {i : Instr} (hf : frameFits i = true) (hp : portCommand i = none) : Statement i :=
  ⟨fun _ => hf, fun k h => absurd (hp.symm.trans h) (Option.some_ne_none k).symm⟩

/-- A command of the cabinet port meets the statement. -/
theorem ofCommand {i : Instr} {k : Cmd} (h : portCommand i = some k) : Statement i :=
  ⟨fun h' => absurd (h.symm.trans h') (Option.some_ne_none k),
    fun k' _ => ⟨mem_allCommands k', portCommand_parseCommand k'⟩⟩

theorem powerReset : Statement .powerReset :=
  ofEvent rfl rfl

theorem lossOfSignal (cut : Option CutFrame) : Statement (.lossOfSignal cut) :=
  ofEvent rfl rfl

theorem fillRunLimit : Statement .fillRunLimit :=
  ofEvent rfl rfl

theorem errorRunLimit (run : ErrorRun) : Statement (.errorRunLimit run) :=
  ofEvent rfl rfl

theorem nodeCycleFrame (f : RxFrame) : Statement (.nodeCycleFrame f) :=
  ofEvent rfl rfl

theorem silenceLimit : Statement .silenceLimit :=
  ofEvent rfl rfl

theorem cycleBoundary : Statement .cycleBoundary :=
  ofEvent rfl rfl

theorem returnMissLimit : Statement .returnMissLimit :=
  ofEvent rfl rfl

theorem cycleReturn (f : RxFrame) : Statement (.cycleReturn f) :=
  ofEvent rfl rfl

theorem foreignFrame (kind : FrameKind) (f : RxFrame) (sent : Option Nat) :
    Statement (.foreignFrame kind f sent) :=
  ofEvent rfl rfl

theorem nodeCollectFrame (f : RxFrame) : Statement (.nodeCollectFrame f) :=
  ofEvent rfl rfl

theorem collectReturn (f : RxFrame) (roundTrip : Nat) : Statement (.collectReturn f roundTrip) :=
  ofEvent rfl rfl

theorem linkWaitEnd : Statement .linkWaitEnd :=
  ofEvent rfl rfl

theorem raceWaitEnd : Statement .raceWaitEnd :=
  ofEvent rfl rfl

theorem raceTimeTop : Statement .raceTimeTop :=
  ofEvent rfl rfl

theorem goFire : Statement .goFire :=
  ofEvent rfl rfl

theorem goPulseEnd : Statement .goPulseEnd :=
  ofEvent rfl rfl

theorem fieldEdge (lowMicros : Nat) : Statement (.fieldEdge lowMicros) :=
  ofEvent rfl rfl

theorem fieldComputationEnd : Statement .fieldComputationEnd :=
  ofEvent rfl rfl

theorem outstandingWaitLimit : Statement .outstandingWaitLimit :=
  ofEvent rfl rfl

theorem claimAgeLimit : Statement .claimAgeLimit :=
  ofEvent rfl rfl

theorem closeDeadline : Statement .closeDeadline :=
  ofEvent rfl rfl

theorem lostCarLimit (car : Nat) : Statement (.lostCarLimit car) :=
  ofEvent rfl rfl

theorem referralTimeout : Statement .referralTimeout :=
  ofEvent rfl rfl

theorem receiveIdleLimit (entry : Nat) : Statement (.receiveIdleLimit entry) :=
  ofEvent rfl rfl

theorem commandByteWrite (b : Byte) : Statement (.commandByteWrite b) :=
  ofEvent rfl rfl

theorem reportByteRead : Statement .reportByteRead :=
  ofEvent rfl rfl

theorem emptyFrame : Statement .emptyFrame :=
  ofEvent rfl rfl

theorem damagedFrame : Statement .damagedFrame :=
  ofEvent rfl rfl

theorem unknownCommand (code : Byte) : Statement (.unknownCommand code) :=
  ofEvent rfl rfl

theorem replyPlaced : Statement .replyPlaced :=
  ofEvent rfl rfl

theorem reportPendingPlaced : Statement .reportPendingPlaced :=
  ofEvent rfl rfl

theorem noticePlaced : Statement .noticePlaced :=
  ofEvent rfl rfl

theorem lockChange (asserted : Bool) : Statement (.lockChange asserted) :=
  ofEvent rfl rfl

theorem configure (fits : Bool) (address role seatCount : Nat) (title revision : Half) :
    Statement (.configure fits address role seatCount title revision) :=
  ofCommand rfl

theorem restart (fits : Bool) : Statement (.restart fits) :=
  ofCommand rfl

theorem standby (args : StandbyArgs) : Statement (.standby args) :=
  ofCommand rfl

theorem resumeRing (fits : Bool) : Statement (.resumeRing fits) :=
  ofCommand rfl

theorem status (fits : Bool) (part : StatusPart) : Statement (.status fits part) :=
  ofCommand rfl

theorem survey (fits : Bool) : Statement (.survey fits) :=
  ofCommand rfl

theorem openGathering (fits : Bool) : Statement (.openGathering fits) :=
  ofCommand rfl

theorem closeGathering (fits : Bool) : Statement (.closeGathering fits) :=
  ofCommand rfl

theorem startRace (fits : Bool) (lead : Nat) : Statement (.startRace fits lead) :=
  ofCommand rfl

theorem abortRace (fits : Bool) : Statement (.abortRace fits) :=
  ofCommand rfl

theorem hold (fits : Bool) : Statement (.hold fits) :=
  ofCommand rfl

theorem resume (fits : Bool) : Statement (.resume fits) :=
  ofCommand rfl

theorem clearRace (fits : Bool) : Statement (.clearRace fits) :=
  ofCommand rfl

theorem raceSetupWrite (fits : Bool) (start : Nat) (values : List Nat) :
    Statement (.raceSetupWrite fits start values) :=
  ofCommand rfl

theorem raceSetupRead (fits : Bool) (start count : Nat) : Statement (.raceSetupRead fits start count) :=
  ofCommand rfl

theorem gridWrite (fits : Bool) (start : Nat) (values : List Nat) : Statement (.gridWrite fits start values) :=
  ofCommand rfl

theorem gridRead (fits : Bool) (start count : Nat) : Statement (.gridRead fits start count) :=
  ofCommand rfl

theorem poll (fits : Bool) (station : Nat) : Statement (.poll fits station) :=
  ofCommand rfl

theorem clearStations (fits : Bool) : Statement (.clearStations fits) :=
  ofCommand rfl

theorem admitCar (fits : Bool) (choice : CarChoice) : Statement (.admitCar fits choice) :=
  ofCommand rfl

theorem refuse (fits : Bool) : Statement (.refuse fits) :=
  ofCommand rfl

theorem join (fits : Bool) (seat : Nat) (tag : List Byte) : Statement (.join fits seat tag) :=
  ofCommand rfl

theorem leave (fits : Bool) (seat : Nat) : Statement (.leave fits seat) :=
  ofCommand rfl

theorem setReady (fits : Bool) (value : Nat) : Statement (.setReady fits value) :=
  ofCommand rfl

theorem requestAttention (fits : Bool) (code : Nat) : Statement (.requestAttention fits code) :=
  ofCommand rfl

theorem withdrawAttention (fits : Bool) : Statement (.withdrawAttention fits) :=
  ofCommand rfl

theorem localTrigger (fits : Bool) : Statement (.localTrigger fits) :=
  ofCommand rfl

theorem carReport (fits : Bool) (seat : Nat) (args : CarReportArgs) : Statement (.carReport fits seat args) :=
  ofCommand rfl

theorem game (fits : Bool) (dest : Nat) (cls : Option MsgClass) (tag : Nat) (payload : List Byte) :
    Statement (.game fits dest cls tag payload) :=
  ofCommand rfl

theorem bulkOpen (fits : Bool) (channel peer total : Nat) (optEnd optEach : Bool) :
    Statement (.bulkOpen fits channel peer total optEnd optEach) :=
  ofCommand rfl

theorem bulkData (fits : Bool) (channel : Nat) (bytes : List Byte) : Statement (.bulkData fits channel bytes) :=
  ofCommand rfl

theorem bulkAbort (fits : Bool) (channel : Nat) : Statement (.bulkAbort fits channel) :=
  ofCommand rfl

theorem tableWrite (fits : Bool) (table : TableName) (start : Nat) (values : List Nat) :
    Statement (.tableWrite fits table start values) :=
  ofCommand rfl

theorem tableRead (fits : Bool) (table : TableName) (start count : Nat) :
    Statement (.tableRead fits table start count) :=
  ofCommand rfl

theorem remoteTableWrite (fits : Bool) (station : Nat) (table : TableName) (start : Nat) (values : List Nat) :
    Statement (.remoteTableWrite fits station table start values) :=
  ofCommand rfl

theorem remoteTableRead (fits : Bool) (station : Nat) (table : TableName) (start count : Nat) :
    Statement (.remoteTableRead fits station table start count) :=
  ofCommand rfl

theorem protectOn (fits : Bool) : Statement (.protectOn fits) :=
  ofCommand rfl

theorem protectOff (fits : Bool) : Statement (.protectOff fits) :=
  ofCommand rfl

theorem protectionListWrite (fits : Bool) (groups : Groups) (unknown : Bool) :
    Statement (.protectionListWrite fits groups unknown) :=
  ofCommand rfl

end Sys2Proof.Laws.F
end

