-- ==== Sys2Proof/Laws/SeatFrames.lean ====
section
/-! SUPPORT. What the operations of the seat unit and the replica store leave unchanged, one lemma each. -/

namespace Sys2Proof.Machine

open Sys2Proof

/-- A seat record set changes the seat unit alone. -/
@[simp] theorem setSeat_leaves (k : Nat) (r : SeatRecord) (s : State) :
    (setSeat k r s).link = s.link ∧ (setSeat k r s).cyc = s.cyc ∧ (setSeat k r s).survey = s.survey ∧
      (setSeat k r s).time = s.time ∧ (setSeat k r s).slots = s.slots ∧ (setSeat k r s).race = s.race ∧
      (setSeat k r s).replica = s.replica ∧ (setSeat k r s).fieldNumber = s.fieldNumber ∧
      (setSeat k r s).dropped = s.dropped ∧ (setSeat k r s).bulk = s.bulk ∧ (setSeat k r s).port = s.port ∧
      (setSeat k r s).settings = s.settings ∧ (setSeat k r s).freeCount = s.freeCount ∧
      (setSeat k r s).pending = s.pending := by
  simp [setSeat]

/-- A SEATS report changes the port alone. -/
@[simp] theorem queueSeats_leaves (cause : SeatsCause) (seat : Option Nat) (o : Option MsgOutcome) (named : Option Nat) (s : State) :
    (queueSeats cause seat o named s).link = s.link ∧ (queueSeats cause seat o named s).cyc = s.cyc ∧
      (queueSeats cause seat o named s).survey = s.survey ∧ (queueSeats cause seat o named s).time = s.time ∧
      (queueSeats cause seat o named s).slots = s.slots ∧ (queueSeats cause seat o named s).race = s.race ∧
      (queueSeats cause seat o named s).seat = s.seat ∧ (queueSeats cause seat o named s).replica = s.replica ∧
      (queueSeats cause seat o named s).fieldNumber = s.fieldNumber ∧
      (queueSeats cause seat o named s).dropped = s.dropped ∧ (queueSeats cause seat o named s).bulk = s.bulk ∧
      (queueSeats cause seat o named s).settings = s.settings ∧
      (queueSeats cause seat o named s).freeCount = s.freeCount ∧
      (queueSeats cause seat o named s).pending = s.pending := by
  simp [queueSeats]

/-- A JOIN outcome changes the seat unit and the port alone. -/
@[simp] theorem joinOutcome_leaves (k : Nat) (o : MsgOutcome) (s : State) :
    (joinOutcome k o s).link = s.link ∧ (joinOutcome k o s).cyc = s.cyc ∧
      (joinOutcome k o s).survey = s.survey ∧ (joinOutcome k o s).time = s.time ∧
      (joinOutcome k o s).slots = s.slots ∧ (joinOutcome k o s).race = s.race ∧
      (joinOutcome k o s).replica = s.replica ∧ (joinOutcome k o s).fieldNumber = s.fieldNumber ∧
      (joinOutcome k o s).dropped = s.dropped ∧ (joinOutcome k o s).bulk = s.bulk ∧
      (joinOutcome k o s).settings = s.settings ∧ (joinOutcome k o s).freeCount = s.freeCount ∧
      (joinOutcome k o s).pending = s.pending := by
  simp [joinOutcome]

/-- A LEAVE outcome changes the port alone. -/
@[simp] theorem leaveOutcome_leaves (k : Nat) (o : MsgOutcome) (s : State) :
    (leaveOutcome k o s).link = s.link ∧ (leaveOutcome k o s).cyc = s.cyc ∧
      (leaveOutcome k o s).survey = s.survey ∧ (leaveOutcome k o s).time = s.time ∧
      (leaveOutcome k o s).slots = s.slots ∧ (leaveOutcome k o s).race = s.race ∧
      (leaveOutcome k o s).seat = s.seat ∧ (leaveOutcome k o s).replica = s.replica ∧
      (leaveOutcome k o s).fieldNumber = s.fieldNumber ∧ (leaveOutcome k o s).dropped = s.dropped ∧
      (leaveOutcome k o s).bulk = s.bulk ∧ (leaveOutcome k o s).settings = s.settings ∧
      (leaveOutcome k o s).freeCount = s.freeCount ∧ (leaveOutcome k o s).pending = s.pending := by
  simp [leaveOutcome]

/-- The seat mirror on one seat changes the seat unit and the port alone, and may draw a free tag. -/
@[simp] theorem mirrorSeat_leaves (l : List CarSummary) (k : Nat) (s : State) :
    (mirrorSeat l k s).link = s.link ∧ (mirrorSeat l k s).cyc = s.cyc ∧ (mirrorSeat l k s).survey = s.survey ∧
      (mirrorSeat l k s).time = s.time ∧ (mirrorSeat l k s).slots = s.slots ∧
      (mirrorSeat l k s).race = s.race ∧ (mirrorSeat l k s).replica = s.replica ∧
      (mirrorSeat l k s).fieldNumber = s.fieldNumber ∧ (mirrorSeat l k s).dropped = s.dropped ∧
      (mirrorSeat l k s).bulk = s.bulk ∧ (mirrorSeat l k s).settings = s.settings ∧
      (mirrorSeat l k s).pending = s.pending := by
  unfold mirrorSeat
  generalize ownedCar l (address s) k = a
  generalize mirrorRelease l (address s) k (seatAt s k) = b
  cases a <;> cases b <;> dsimp only <;> (repeat' split) <;> simp_all

/-- The seat mirror changes the seat unit and the port alone, and may draw free tags. -/
@[simp] theorem mirrorSeats_leaves (l : List CarSummary) (s : State) :
    (mirrorSeats l s).link = s.link ∧ (mirrorSeats l s).cyc = s.cyc ∧ (mirrorSeats l s).survey = s.survey ∧
      (mirrorSeats l s).time = s.time ∧ (mirrorSeats l s).slots = s.slots ∧ (mirrorSeats l s).race = s.race ∧
      (mirrorSeats l s).replica = s.replica ∧ (mirrorSeats l s).fieldNumber = s.fieldNumber ∧
      (mirrorSeats l s).dropped = s.dropped ∧ (mirrorSeats l s).bulk = s.bulk ∧
      (mirrorSeats l s).settings = s.settings ∧ (mirrorSeats l s).pending = s.pending := by
  unfold mirrorSeats
  exact ⟨foldl_keeps State.link (fun s a => by simp) _ _,
    foldl_keeps State.cyc (fun s a => by simp) _ _,
    foldl_keeps State.survey (fun s a => by simp) _ _,
    foldl_keeps State.time (fun s a => by simp) _ _,
    foldl_keeps State.slots (fun s a => by simp) _ _,
    foldl_keeps State.race (fun s a => by simp) _ _,
    foldl_keeps State.replica (fun s a => by simp) _ _,
    foldl_keeps State.fieldNumber (fun s a => by simp) _ _,
    foldl_keeps State.dropped (fun s a => by simp) _ _,
    foldl_keeps State.bulk (fun s a => by simp) _ _,
    foldl_keeps State.settings (fun s a => by simp) _ _,
    foldl_keeps State.pending (fun s a => by simp) _ _⟩

/-- An entry cleared changes the replica store and the computation in progress alone. -/
@[simp] theorem clearEntry_leaves (c : Nat) (s : State) :
    (clearEntry c s).link = s.link ∧ (clearEntry c s).cyc = s.cyc ∧ (clearEntry c s).survey = s.survey ∧
      (clearEntry c s).slots = s.slots ∧ (clearEntry c s).race = s.race ∧ (clearEntry c s).seat = s.seat ∧
      (clearEntry c s).fieldNumber = s.fieldNumber ∧ (clearEntry c s).dropped = s.dropped ∧
      (clearEntry c s).bulk = s.bulk ∧ (clearEntry c s).port = s.port ∧
      (clearEntry c s).settings = s.settings ∧ (clearEntry c s).freeCount = s.freeCount ∧
      (clearEntry c s).pending = s.pending := by
  simp [clearEntry]

/-- The replica store cleared changes itself and the computation in progress alone. -/
@[simp] theorem clearReplica_leaves  (s : State) :
    (clearReplica s).link = s.link ∧ (clearReplica s).cyc = s.cyc ∧ (clearReplica s).survey = s.survey ∧
      (clearReplica s).slots = s.slots ∧ (clearReplica s).race = s.race ∧ (clearReplica s).seat = s.seat ∧
      (clearReplica s).fieldNumber = s.fieldNumber ∧ (clearReplica s).dropped = s.dropped ∧
      (clearReplica s).bulk = s.bulk ∧ (clearReplica s).port = s.port ∧
      (clearReplica s).settings = s.settings ∧ (clearReplica s).freeCount = s.freeCount ∧
      (clearReplica s).pending = s.pending := by
  unfold clearReplica
  exact ⟨foldl_keeps State.link (fun s a => by simp) _ _,
    foldl_keeps State.cyc (fun s a => by simp) _ _,
    foldl_keeps State.survey (fun s a => by simp) _ _,
    foldl_keeps State.slots (fun s a => by simp) _ _,
    foldl_keeps State.race (fun s a => by simp) _ _,
    foldl_keeps State.seat (fun s a => by simp) _ _,
    foldl_keeps State.fieldNumber (fun s a => by simp) _ _,
    foldl_keeps State.dropped (fun s a => by simp) _ _,
    foldl_keeps State.bulk (fun s a => by simp) _ _,
    foldl_keeps State.port (fun s a => by simp) _ _,
    foldl_keeps State.settings (fun s a => by simp) _ _,
    foldl_keeps State.freeCount (fun s a => by simp) _ _,
    foldl_keeps State.pending (fun s a => by simp) _ _⟩

/-- A summary sets one entry, and changes nothing else but the computation in progress. -/
@[simp] theorem summarySetEntry_leaves (l : List CarSummary) (c : Nat) (s : State) :
    (summarySetEntry l c s).link = s.link ∧ (summarySetEntry l c s).cyc = s.cyc ∧
      (summarySetEntry l c s).survey = s.survey ∧ (summarySetEntry l c s).slots = s.slots ∧
      (summarySetEntry l c s).race = s.race ∧ (summarySetEntry l c s).seat = s.seat ∧
      (summarySetEntry l c s).fieldNumber = s.fieldNumber ∧ (summarySetEntry l c s).dropped = s.dropped ∧
      (summarySetEntry l c s).bulk = s.bulk ∧ (summarySetEntry l c s).port = s.port ∧
      (summarySetEntry l c s).settings = s.settings ∧ (summarySetEntry l c s).freeCount = s.freeCount ∧
      (summarySetEntry l c s).pending = s.pending := by
  unfold summarySetEntry
  try dsimp only
  (repeat' split) <;> simp

/-- A summary sets the entries, and changes nothing else but the computation in progress. -/
@[simp] theorem summarySet_leaves (l : List CarSummary) (s : State) :
    (summarySet l s).link = s.link ∧ (summarySet l s).cyc = s.cyc ∧ (summarySet l s).survey = s.survey ∧
      (summarySet l s).slots = s.slots ∧ (summarySet l s).race = s.race ∧ (summarySet l s).seat = s.seat ∧
      (summarySet l s).fieldNumber = s.fieldNumber ∧ (summarySet l s).dropped = s.dropped ∧
      (summarySet l s).bulk = s.bulk ∧ (summarySet l s).port = s.port ∧
      (summarySet l s).settings = s.settings ∧ (summarySet l s).freeCount = s.freeCount ∧
      (summarySet l s).pending = s.pending := by
  unfold summarySet
  exact ⟨foldl_keeps State.link (fun s a => by simp) _ _,
    foldl_keeps State.cyc (fun s a => by simp) _ _,
    foldl_keeps State.survey (fun s a => by simp) _ _,
    foldl_keeps State.slots (fun s a => by simp) _ _,
    foldl_keeps State.race (fun s a => by simp) _ _,
    foldl_keeps State.seat (fun s a => by simp) _ _,
    foldl_keeps State.fieldNumber (fun s a => by simp) _ _,
    foldl_keeps State.dropped (fun s a => by simp) _ _,
    foldl_keeps State.bulk (fun s a => by simp) _ _,
    foldl_keeps State.port (fun s a => by simp) _ _,
    foldl_keeps State.settings (fun s a => by simp) _ _,
    foldl_keeps State.freeCount (fun s a => by simp) _ _,
    foldl_keeps State.pending (fun s a => by simp) _ _⟩

/-- Release marks change the replica store alone. -/
@[simp] theorem setReleaseMarks_leaves  (s : State) :
    (setReleaseMarks s).link = s.link ∧ (setReleaseMarks s).cyc = s.cyc ∧
      (setReleaseMarks s).survey = s.survey ∧ (setReleaseMarks s).time = s.time ∧
      (setReleaseMarks s).slots = s.slots ∧ (setReleaseMarks s).race = s.race ∧
      (setReleaseMarks s).seat = s.seat ∧ (setReleaseMarks s).fieldNumber = s.fieldNumber ∧
      (setReleaseMarks s).dropped = s.dropped ∧ (setReleaseMarks s).bulk = s.bulk ∧
      (setReleaseMarks s).port = s.port ∧ (setReleaseMarks s).settings = s.settings ∧
      (setReleaseMarks s).freeCount = s.freeCount ∧ (setReleaseMarks s).pending = s.pending := by
  simp [setReleaseMarks]

/-- A block taken changes the replica store and the port alone. -/
@[simp] theorem takeBlock_leaves (l : List CarSummary) (c : Nat) (syms : List RxSym) (s : State) :
    (takeBlock l c syms s).link = s.link ∧ (takeBlock l c syms s).cyc = s.cyc ∧
      (takeBlock l c syms s).survey = s.survey ∧ (takeBlock l c syms s).time = s.time ∧
      (takeBlock l c syms s).slots = s.slots ∧ (takeBlock l c syms s).race = s.race ∧
      (takeBlock l c syms s).seat = s.seat ∧ (takeBlock l c syms s).fieldNumber = s.fieldNumber ∧
      (takeBlock l c syms s).dropped = s.dropped ∧ (takeBlock l c syms s).bulk = s.bulk ∧
      (takeBlock l c syms s).settings = s.settings ∧ (takeBlock l c syms s).freeCount = s.freeCount ∧
      (takeBlock l c syms s).pending = s.pending := by
  unfold takeBlock
  try dsimp only
  (repeat' split) <;> simp

/-- A copy of CLEAR STATIONS changes the seat unit, the replica store, the computation in progress and the port alone. -/
@[simp] theorem clearStationsCopy_leaves  (s : State) :
    (clearStationsCopy s).link = s.link ∧ (clearStationsCopy s).cyc = s.cyc ∧
      (clearStationsCopy s).survey = s.survey ∧ (clearStationsCopy s).slots = s.slots ∧
      (clearStationsCopy s).race = s.race ∧ (clearStationsCopy s).fieldNumber = s.fieldNumber ∧
      (clearStationsCopy s).dropped = s.dropped ∧ (clearStationsCopy s).bulk = s.bulk ∧
      (clearStationsCopy s).settings = s.settings ∧ (clearStationsCopy s).freeCount = s.freeCount ∧
      (clearStationsCopy s).pending = s.pending := by
  simp [clearStationsCopy]

end Sys2Proof.Machine
end

