-- ==== Sys2Proof/Laws/RaceFrames.lean ====
section
/-! SUPPORT. What the operations of the race controller leave unchanged, one lemma each. -/

namespace Sys2Proof.Machine

open Sys2Proof

/-- A PHASE report changes the port alone. -/
@[simp] theorem queuePhase_leaves (ev : PhaseEvent) (s : State) :
    (queuePhase ev s).link = s.link ∧ (queuePhase ev s).cyc = s.cyc ∧ (queuePhase ev s).survey = s.survey ∧
      (queuePhase ev s).time = s.time ∧ (queuePhase ev s).slots = s.slots ∧ (queuePhase ev s).race = s.race ∧
      (queuePhase ev s).seat = s.seat ∧ (queuePhase ev s).replica = s.replica ∧
      (queuePhase ev s).fieldNumber = s.fieldNumber ∧ (queuePhase ev s).dropped = s.dropped ∧
      (queuePhase ev s).bulk = s.bulk ∧ (queuePhase ev s).settings = s.settings ∧
      (queuePhase ev s).freeCount = s.freeCount ∧ (queuePhase ev s).pending = s.pending := by
  simp [queuePhase]

/-- A PLACING report changes the port alone. -/
@[simp] theorem queuePlacing_leaves (cause : PlacingCause) (before : RaceControl) (s : State) :
    (queuePlacing cause before s).link = s.link ∧ (queuePlacing cause before s).cyc = s.cyc ∧
      (queuePlacing cause before s).survey = s.survey ∧ (queuePlacing cause before s).time = s.time ∧
      (queuePlacing cause before s).slots = s.slots ∧ (queuePlacing cause before s).race = s.race ∧
      (queuePlacing cause before s).seat = s.seat ∧ (queuePlacing cause before s).replica = s.replica ∧
      (queuePlacing cause before s).fieldNumber = s.fieldNumber ∧
      (queuePlacing cause before s).dropped = s.dropped ∧ (queuePlacing cause before s).bulk = s.bulk ∧
      (queuePlacing cause before s).settings = s.settings ∧
      (queuePlacing cause before s).freeCount = s.freeCount ∧ (queuePlacing cause before s).pending = s.pending := by
  simp [queuePlacing]

/-- A REFERRAL report changes the port alone. -/
@[simp] theorem queueReferral_leaves (cond : ReferralCondition) (j : JoinRequest) (timeout : Nat) (a : Option JoinAnswer) (s : State) :
    (queueReferral cond j timeout a s).link = s.link ∧ (queueReferral cond j timeout a s).cyc = s.cyc ∧
      (queueReferral cond j timeout a s).survey = s.survey ∧ (queueReferral cond j timeout a s).time = s.time ∧
      (queueReferral cond j timeout a s).slots = s.slots ∧ (queueReferral cond j timeout a s).race = s.race ∧
      (queueReferral cond j timeout a s).seat = s.seat ∧
      (queueReferral cond j timeout a s).replica = s.replica ∧
      (queueReferral cond j timeout a s).fieldNumber = s.fieldNumber ∧
      (queueReferral cond j timeout a s).dropped = s.dropped ∧
      (queueReferral cond j timeout a s).bulk = s.bulk ∧
      (queueReferral cond j timeout a s).settings = s.settings ∧
      (queueReferral cond j timeout a s).freeCount = s.freeCount ∧
      (queueReferral cond j timeout a s).pending = s.pending := by
  simp [queueReferral]

/-- The test for the end of the race changes the race controller, the timebase and the port alone. -/
@[simp] theorem testRaceEnd_leaves  (s : State) :
    (testRaceEnd s).link = s.link ∧ (testRaceEnd s).cyc = s.cyc ∧ (testRaceEnd s).survey = s.survey ∧
      (testRaceEnd s).slots = s.slots ∧ (testRaceEnd s).seat = s.seat ∧ (testRaceEnd s).replica = s.replica ∧
      (testRaceEnd s).fieldNumber = s.fieldNumber ∧ (testRaceEnd s).dropped = s.dropped ∧
      (testRaceEnd s).bulk = s.bulk ∧ (testRaceEnd s).settings = s.settings ∧
      (testRaceEnd s).freeCount = s.freeCount ∧ (testRaceEnd s).pending = s.pending := by
  unfold testRaceEnd
  try dsimp only
  (repeat' split) <;> simp

/-- What follows a car that left RACING changes the race controller, the timebase and the port alone. -/
@[simp] theorem afterLeavingRacing_leaves (cause : PlacingCause) (before : RaceControl) (s : State) :
    (afterLeavingRacing cause before s).link = s.link ∧ (afterLeavingRacing cause before s).cyc = s.cyc ∧
      (afterLeavingRacing cause before s).survey = s.survey ∧
      (afterLeavingRacing cause before s).slots = s.slots ∧ (afterLeavingRacing cause before s).seat = s.seat ∧
      (afterLeavingRacing cause before s).replica = s.replica ∧
      (afterLeavingRacing cause before s).fieldNumber = s.fieldNumber ∧
      (afterLeavingRacing cause before s).dropped = s.dropped ∧
      (afterLeavingRacing cause before s).bulk = s.bulk ∧
      (afterLeavingRacing cause before s).settings = s.settings ∧
      (afterLeavingRacing cause before s).freeCount = s.freeCount ∧
      (afterLeavingRacing cause before s).pending = s.pending := by
  simp [afterLeavingRacing]

/-- A car retired changes the race controller, the timebase and the port alone. -/
@[simp] theorem retireCar_leaves (why : RetireReason) (c : Nat) (s : State) :
    (retireCar why c s).link = s.link ∧ (retireCar why c s).cyc = s.cyc ∧
      (retireCar why c s).survey = s.survey ∧ (retireCar why c s).slots = s.slots ∧
      (retireCar why c s).seat = s.seat ∧ (retireCar why c s).replica = s.replica ∧
      (retireCar why c s).fieldNumber = s.fieldNumber ∧ (retireCar why c s).dropped = s.dropped ∧
      (retireCar why c s).bulk = s.bulk ∧ (retireCar why c s).settings = s.settings ∧
      (retireCar why c s).freeCount = s.freeCount ∧ (retireCar why c s).pending = s.pending := by
  simp [retireCar]

/-- The deadline taken changes the race controller, the timebase and the port alone. -/
@[simp] theorem takeDeadline_leaves  (s : State) :
    (takeDeadline s).link = s.link ∧ (takeDeadline s).cyc = s.cyc ∧ (takeDeadline s).survey = s.survey ∧
      (takeDeadline s).slots = s.slots ∧ (takeDeadline s).seat = s.seat ∧
      (takeDeadline s).replica = s.replica ∧ (takeDeadline s).fieldNumber = s.fieldNumber ∧
      (takeDeadline s).dropped = s.dropped ∧ (takeDeadline s).bulk = s.bulk ∧
      (takeDeadline s).settings = s.settings ∧ (takeDeadline s).freeCount = s.freeCount ∧
      (takeDeadline s).pending = s.pending := by
  simp [takeDeadline]

/-- A finishing block changes the race controller, the timebase and the port alone. -/
@[simp] theorem finishCar_leaves (c : Nat) (d : CarData) (s : State) :
    (finishCar c d s).link = s.link ∧ (finishCar c d s).cyc = s.cyc ∧ (finishCar c d s).survey = s.survey ∧
      (finishCar c d s).slots = s.slots ∧ (finishCar c d s).seat = s.seat ∧
      (finishCar c d s).replica = s.replica ∧ (finishCar c d s).fieldNumber = s.fieldNumber ∧
      (finishCar c d s).dropped = s.dropped ∧ (finishCar c d s).bulk = s.bulk ∧
      (finishCar c d s).settings = s.settings ∧ (finishCar c d s).freeCount = s.freeCount ∧
      (finishCar c d s).pending = s.pending := by
  unfold finishCar
  try dsimp only
  (repeat' split) <;> simp

/-- A returned block read changes the race controller, the timebase and the port alone. -/
@[simp] theorem readBlock_leaves (c : Nat) (syms : List RxSym) (s : State) :
    (readBlock c syms s).link = s.link ∧ (readBlock c syms s).cyc = s.cyc ∧
      (readBlock c syms s).survey = s.survey ∧ (readBlock c syms s).slots = s.slots ∧
      (readBlock c syms s).seat = s.seat ∧ (readBlock c syms s).replica = s.replica ∧
      (readBlock c syms s).fieldNumber = s.fieldNumber ∧ (readBlock c syms s).dropped = s.dropped ∧
      (readBlock c syms s).bulk = s.bulk ∧ (readBlock c syms s).settings = s.settings ∧
      (readBlock c syms s).freeCount = s.freeCount ∧ (readBlock c syms s).pending = s.pending := by
  unfold readBlock
  try dsimp only
  (repeat' split) <;> simp

/-- The held causes set change the race controller, the timebase and the port alone. -/
@[simp] theorem setCauses_leaves (causes : HeldCauses) (ev : PhaseEvent) (s : State) :
    (setCauses causes ev s).link = s.link ∧ (setCauses causes ev s).cyc = s.cyc ∧
      (setCauses causes ev s).survey = s.survey ∧ (setCauses causes ev s).slots = s.slots ∧
      (setCauses causes ev s).seat = s.seat ∧ (setCauses causes ev s).replica = s.replica ∧
      (setCauses causes ev s).fieldNumber = s.fieldNumber ∧ (setCauses causes ev s).dropped = s.dropped ∧
      (setCauses causes ev s).bulk = s.bulk ∧ (setCauses causes ev s).settings = s.settings ∧
      (setCauses causes ev s).freeCount = s.freeCount ∧ (setCauses causes ev s).pending = s.pending := by
  unfold setCauses
  try dsimp only
  (repeat' split) <;> simp

/-- A referral opened changes the race controller and the port alone. -/
@[simp] theorem openReferral_leaves (j : JoinRequest) (carrier : Carrier) (s : State) :
    (openReferral j carrier s).link = s.link ∧ (openReferral j carrier s).cyc = s.cyc ∧
      (openReferral j carrier s).survey = s.survey ∧ (openReferral j carrier s).time = s.time ∧
      (openReferral j carrier s).slots = s.slots ∧ (openReferral j carrier s).seat = s.seat ∧
      (openReferral j carrier s).replica = s.replica ∧ (openReferral j carrier s).fieldNumber = s.fieldNumber ∧
      (openReferral j carrier s).dropped = s.dropped ∧ (openReferral j carrier s).bulk = s.bulk ∧
      (openReferral j carrier s).settings = s.settings ∧ (openReferral j carrier s).freeCount = s.freeCount ∧
      (openReferral j carrier s).pending = s.pending := by
  simp [openReferral]

/-- A referral closed changes the race controller and the port alone. -/
@[simp] theorem closeReferral_leaves (j : JoinRequest) (a : JoinAnswer) (s : State) :
    (closeReferral j a s).link = s.link ∧ (closeReferral j a s).cyc = s.cyc ∧
      (closeReferral j a s).survey = s.survey ∧ (closeReferral j a s).time = s.time ∧
      (closeReferral j a s).slots = s.slots ∧ (closeReferral j a s).seat = s.seat ∧
      (closeReferral j a s).replica = s.replica ∧ (closeReferral j a s).fieldNumber = s.fieldNumber ∧
      (closeReferral j a s).dropped = s.dropped ∧ (closeReferral j a s).bulk = s.bulk ∧
      (closeReferral j a s).settings = s.settings ∧ (closeReferral j a s).freeCount = s.freeCount ∧
      (closeReferral j a s).pending = s.pending := by
  simp [closeReferral]

/-- A referral lost changes the race controller and the port alone. -/
@[simp] theorem loseReferral_leaves  (s : State) :
    (loseReferral s).link = s.link ∧ (loseReferral s).cyc = s.cyc ∧ (loseReferral s).survey = s.survey ∧
      (loseReferral s).time = s.time ∧ (loseReferral s).slots = s.slots ∧ (loseReferral s).seat = s.seat ∧
      (loseReferral s).replica = s.replica ∧ (loseReferral s).fieldNumber = s.fieldNumber ∧
      (loseReferral s).dropped = s.dropped ∧ (loseReferral s).bulk = s.bulk ∧
      (loseReferral s).settings = s.settings ∧ (loseReferral s).freeCount = s.freeCount ∧
      (loseReferral s).pending = s.pending := by
  unfold loseReferral
  try dsimp only
  (repeat' split) <;> simp

/-- A referral decided changes the race controller, the seat unit and the port alone. -/
@[simp] theorem decideReferral_leaves (a : JoinAnswer) (s : State) :
    (decideReferral a s).link = s.link ∧ (decideReferral a s).cyc = s.cyc ∧
      (decideReferral a s).survey = s.survey ∧ (decideReferral a s).time = s.time ∧
      (decideReferral a s).slots = s.slots ∧ (decideReferral a s).replica = s.replica ∧
      (decideReferral a s).fieldNumber = s.fieldNumber ∧ (decideReferral a s).dropped = s.dropped ∧
      (decideReferral a s).bulk = s.bulk ∧ (decideReferral a s).settings = s.settings ∧
      (decideReferral a s).freeCount = s.freeCount ∧ (decideReferral a s).pending = s.pending := by
  unfold decideReferral
  try dsimp only
  (repeat' split) <;> simp

/-- The anchor's own join changes the race controller, the seat unit and the port alone. -/
@[simp] theorem ownJoin_leaves (j : JoinRequest) (s : State) :
    (ownJoin j s).link = s.link ∧ (ownJoin j s).cyc = s.cyc ∧ (ownJoin j s).survey = s.survey ∧
      (ownJoin j s).time = s.time ∧ (ownJoin j s).slots = s.slots ∧ (ownJoin j s).replica = s.replica ∧
      (ownJoin j s).fieldNumber = s.fieldNumber ∧ (ownJoin j s).dropped = s.dropped ∧
      (ownJoin j s).bulk = s.bulk ∧ (ownJoin j s).settings = s.settings ∧
      (ownJoin j s).freeCount = s.freeCount ∧ (ownJoin j s).pending = s.pending := by
  unfold ownJoin
  try dsimp only
  (repeat' split) <;> simp

/-- A leave changes the race controller, the timebase and the port alone. -/
@[simp] theorem processLeave_leaves (station seat : Nat) (s : State) :
    ((processLeave station seat s).1).link = s.link ∧ ((processLeave station seat s).1).cyc = s.cyc ∧
      ((processLeave station seat s).1).survey = s.survey ∧ ((processLeave station seat s).1).slots = s.slots ∧
      ((processLeave station seat s).1).seat = s.seat ∧ ((processLeave station seat s).1).replica = s.replica ∧
      ((processLeave station seat s).1).fieldNumber = s.fieldNumber ∧
      ((processLeave station seat s).1).dropped = s.dropped ∧ ((processLeave station seat s).1).bulk = s.bulk ∧
      ((processLeave station seat s).1).settings = s.settings ∧
      ((processLeave station seat s).1).freeCount = s.freeCount ∧
      ((processLeave station seat s).1).pending = s.pending := by
  unfold processLeave
  try dsimp only
  (repeat' split) <;> simp

/-- GO at the anchor changes the race controller, the timebase and the port alone. -/
@[simp] theorem fireAtAnchor_leaves (g : Micros) (s : State) :
    (fireAtAnchor g s).link = s.link ∧ (fireAtAnchor g s).cyc = s.cyc ∧ (fireAtAnchor g s).survey = s.survey ∧
      (fireAtAnchor g s).slots = s.slots ∧ (fireAtAnchor g s).seat = s.seat ∧
      (fireAtAnchor g s).replica = s.replica ∧ (fireAtAnchor g s).fieldNumber = s.fieldNumber ∧
      (fireAtAnchor g s).dropped = s.dropped ∧ (fireAtAnchor g s).bulk = s.bulk ∧
      (fireAtAnchor g s).settings = s.settings ∧ (fireAtAnchor g s).freeCount = s.freeCount ∧
      (fireAtAnchor g s).pending = s.pending := by
  unfold fireAtAnchor
  try dsimp only
  (repeat' split) <;> simp

end Sys2Proof.Machine
end

