-- ==== Sys2Proof/Laws/SlotFrames.lean ====
section
/-! SUPPORT. What the operations of the slot engine leave unchanged, one lemma each. -/

namespace Sys2Proof.Machine

open Sys2Proof

/-- A message queued changes the slot engine alone. -/
@[simp] theorem queueTagged_leaves (k : MsgKind) (dest : Nat) (payload : List Byte) (seat : Nat) (s : State) :
    ((queueTagged k dest payload seat s).1).link = s.link ∧
      ((queueTagged k dest payload seat s).1).cyc = s.cyc ∧
      ((queueTagged k dest payload seat s).1).survey = s.survey ∧
      ((queueTagged k dest payload seat s).1).time = s.time ∧
      ((queueTagged k dest payload seat s).1).race = s.race ∧
      ((queueTagged k dest payload seat s).1).seat = s.seat ∧
      ((queueTagged k dest payload seat s).1).replica = s.replica ∧
      ((queueTagged k dest payload seat s).1).fieldNumber = s.fieldNumber ∧
      ((queueTagged k dest payload seat s).1).dropped = s.dropped ∧
      ((queueTagged k dest payload seat s).1).bulk = s.bulk ∧
      ((queueTagged k dest payload seat s).1).port = s.port ∧
      ((queueTagged k dest payload seat s).1).settings = s.settings ∧
      ((queueTagged k dest payload seat s).1).freeCount = s.freeCount ∧
      ((queueTagged k dest payload seat s).1).pending = s.pending := by
  simp [queueTagged]

/-- A post changes the slot engine and the bulk unit alone. -/
@[simp] theorem post_leaves (c : Candidate) (place : Nat) (s : State) :
    ((post c place s).1).link = s.link ∧ ((post c place s).1).cyc = s.cyc ∧
      ((post c place s).1).survey = s.survey ∧ ((post c place s).1).time = s.time ∧
      ((post c place s).1).race = s.race ∧ ((post c place s).1).seat = s.seat ∧
      ((post c place s).1).replica = s.replica ∧ ((post c place s).1).fieldNumber = s.fieldNumber ∧
      ((post c place s).1).dropped = s.dropped ∧ ((post c place s).1).port = s.port ∧
      ((post c place s).1).settings = s.settings ∧ ((post c place s).1).freeCount = s.freeCount ∧
      ((post c place s).1).pending = s.pending := by
  unfold post
  try dsimp only
  (repeat' split) <;> simp

/-- The posting step changes the slot engine and the bulk unit alone. -/
@[simp] theorem postStep_leaves (free : Bool) (place : Nat) (slot : Slot) (p : SlotPass) (s : State) :
    ((postStep free place slot p s).2.2).link = s.link ∧ ((postStep free place slot p s).2.2).cyc = s.cyc ∧
      ((postStep free place slot p s).2.2).survey = s.survey ∧
      ((postStep free place slot p s).2.2).time = s.time ∧ ((postStep free place slot p s).2.2).race = s.race ∧
      ((postStep free place slot p s).2.2).seat = s.seat ∧
      ((postStep free place slot p s).2.2).replica = s.replica ∧
      ((postStep free place slot p s).2.2).fieldNumber = s.fieldNumber ∧
      ((postStep free place slot p s).2.2).dropped = s.dropped ∧
      ((postStep free place slot p s).2.2).port = s.port ∧
      ((postStep free place slot p s).2.2).settings = s.settings ∧
      ((postStep free place slot p s).2.2).freeCount = s.freeCount ∧
      ((postStep free place slot p s).2.2).pending = s.pending := by
  unfold postStep
  try dsimp only
  (repeat' split) <;> simp

/-- An outcome reported changes the slot engine and the port alone. -/
@[simp] theorem outcomeReport_leaves (o : Outstanding) (out : MsgOutcome) (s : State) :
    (outcomeReport o out s).link = s.link ∧ (outcomeReport o out s).cyc = s.cyc ∧
      (outcomeReport o out s).survey = s.survey ∧ (outcomeReport o out s).time = s.time ∧
      (outcomeReport o out s).race = s.race ∧ (outcomeReport o out s).seat = s.seat ∧
      (outcomeReport o out s).replica = s.replica ∧ (outcomeReport o out s).fieldNumber = s.fieldNumber ∧
      (outcomeReport o out s).dropped = s.dropped ∧ (outcomeReport o out s).bulk = s.bulk ∧
      (outcomeReport o out s).settings = s.settings ∧ (outcomeReport o out s).freeCount = s.freeCount ∧
      (outcomeReport o out s).pending = s.pending := by
  unfold outcomeReport
  try dsimp only
  (repeat' split) <;> simp

/-- An outcome handed on changes the slot engine, the seat unit, the bulk unit and the port alone. -/
@[simp] theorem settleEntry_leaves (o : Outstanding) (out : MsgOutcome) (s : State) :
    (settleEntry o out s).link = s.link ∧ (settleEntry o out s).cyc = s.cyc ∧
      (settleEntry o out s).survey = s.survey ∧ (settleEntry o out s).time = s.time ∧
      (settleEntry o out s).race = s.race ∧ (settleEntry o out s).replica = s.replica ∧
      (settleEntry o out s).fieldNumber = s.fieldNumber ∧ (settleEntry o out s).dropped = s.dropped ∧
      (settleEntry o out s).settings = s.settings ∧ (settleEntry o out s).freeCount = s.freeCount ∧
      (settleEntry o out s).pending = s.pending := by
  unfold settleEntry
  try dsimp only
  (repeat' split) <;> simp

/-- An entry ended changes the slot engine, the seat unit, the bulk unit and the port alone. -/
@[simp] theorem endEntry_leaves (o : Outstanding) (out : MsgOutcome) (s : State) :
    (endEntry o out s).link = s.link ∧ (endEntry o out s).cyc = s.cyc ∧ (endEntry o out s).survey = s.survey ∧
      (endEntry o out s).time = s.time ∧ (endEntry o out s).race = s.race ∧
      (endEntry o out s).replica = s.replica ∧ (endEntry o out s).fieldNumber = s.fieldNumber ∧
      (endEntry o out s).dropped = s.dropped ∧ (endEntry o out s).settings = s.settings ∧
      (endEntry o out s).freeCount = s.freeCount ∧ (endEntry o out s).pending = s.pending := by
  simp [endEntry]

/-- An outcome taken changes the slot engine, the seat unit, the bulk unit and the port alone. -/
@[simp] theorem takeOutcome_leaves (place : Nat) (m : SlotMsg) (out : MsgOutcome) (s : State) :
    (takeOutcome place m out s).link = s.link ∧ (takeOutcome place m out s).cyc = s.cyc ∧
      (takeOutcome place m out s).survey = s.survey ∧ (takeOutcome place m out s).time = s.time ∧
      (takeOutcome place m out s).race = s.race ∧ (takeOutcome place m out s).replica = s.replica ∧
      (takeOutcome place m out s).fieldNumber = s.fieldNumber ∧
      (takeOutcome place m out s).dropped = s.dropped ∧ (takeOutcome place m out s).settings = s.settings ∧
      (takeOutcome place m out s).freeCount = s.freeCount ∧ (takeOutcome place m out s).pending = s.pending := by
  unfold takeOutcome
  try dsimp only
  (repeat' split) <;> simp

/-- An outcome read may draw a free value. -/
@[simp] theorem slotOutcome_leaves (m : SlotMsg) (s : State) :
    ((slotOutcome m s).2).link = s.link ∧ ((slotOutcome m s).2).cyc = s.cyc ∧
      ((slotOutcome m s).2).survey = s.survey ∧ ((slotOutcome m s).2).time = s.time ∧
      ((slotOutcome m s).2).slots = s.slots ∧ ((slotOutcome m s).2).race = s.race ∧
      ((slotOutcome m s).2).seat = s.seat ∧ ((slotOutcome m s).2).replica = s.replica ∧
      ((slotOutcome m s).2).fieldNumber = s.fieldNumber ∧ ((slotOutcome m s).2).dropped = s.dropped ∧
      ((slotOutcome m s).2).bulk = s.bulk ∧ ((slotOutcome m s).2).port = s.port ∧
      ((slotOutcome m s).2).settings = s.settings ∧ ((slotOutcome m s).2).pending = s.pending := by
  unfold slotOutcome
  try dsimp only
  (repeat' split) <;> simp

/-- An answer taken changes the slot engine, the seat unit, the bulk unit and the port alone, and may draw a free value. -/
@[simp] theorem takeAnswer_leaves (place : Nat) (m : SlotMsg) (s : State) :
    (takeAnswer place m s).link = s.link ∧ (takeAnswer place m s).cyc = s.cyc ∧
      (takeAnswer place m s).survey = s.survey ∧ (takeAnswer place m s).time = s.time ∧
      (takeAnswer place m s).race = s.race ∧ (takeAnswer place m s).replica = s.replica ∧
      (takeAnswer place m s).fieldNumber = s.fieldNumber ∧ (takeAnswer place m s).dropped = s.dropped ∧
      (takeAnswer place m s).settings = s.settings ∧ (takeAnswer place m s).pending = s.pending := by
  unfold takeAnswer
  try dsimp only
  (repeat' split) <;> simp

/-- Entries ended LOST change the slot engine, the seat unit, the bulk unit and the port alone. -/
@[simp] theorem endLost_leaves (p : Outstanding → Bool) (s : State) :
    (endLost p s).link = s.link ∧ (endLost p s).cyc = s.cyc ∧ (endLost p s).survey = s.survey ∧
      (endLost p s).time = s.time ∧ (endLost p s).race = s.race ∧ (endLost p s).replica = s.replica ∧
      (endLost p s).fieldNumber = s.fieldNumber ∧ (endLost p s).dropped = s.dropped ∧
      (endLost p s).settings = s.settings ∧ (endLost p s).freeCount = s.freeCount ∧
      (endLost p s).pending = s.pending := by
  unfold endLost
  exact ⟨foldl_keeps State.link (fun s a => by simp) _ _,
    foldl_keeps State.cyc (fun s a => by simp) _ _,
    foldl_keeps State.survey (fun s a => by simp) _ _,
    foldl_keeps State.time (fun s a => by simp) _ _,
    foldl_keeps State.race (fun s a => by simp) _ _,
    foldl_keeps State.replica (fun s a => by simp) _ _,
    foldl_keeps State.fieldNumber (fun s a => by simp) _ _,
    foldl_keeps State.dropped (fun s a => by simp) _ _,
    foldl_keeps State.settings (fun s a => by simp) _ _,
    foldl_keeps State.freeCount (fun s a => by simp) _ _,
    foldl_keeps State.pending (fun s a => by simp) _ _⟩

/-- Entries at the wait limit change the slot engine, the seat unit, the bulk unit and the port alone. -/
@[simp] theorem endWaitedOut_leaves  (s : State) :
    (endWaitedOut s).link = s.link ∧ (endWaitedOut s).cyc = s.cyc ∧ (endWaitedOut s).survey = s.survey ∧
      (endWaitedOut s).time = s.time ∧ (endWaitedOut s).race = s.race ∧ (endWaitedOut s).replica = s.replica ∧
      (endWaitedOut s).fieldNumber = s.fieldNumber ∧ (endWaitedOut s).dropped = s.dropped ∧
      (endWaitedOut s).settings = s.settings ∧ (endWaitedOut s).freeCount = s.freeCount ∧
      (endWaitedOut s).pending = s.pending := by
  simp [endWaitedOut]

/-- A queued message discarded changes the seat unit and the port alone. -/
@[simp] theorem discardQueued_leaves (m : QueuedMsg) (s : State) :
    (discardQueued s m).link = s.link ∧ (discardQueued s m).cyc = s.cyc ∧
      (discardQueued s m).survey = s.survey ∧ (discardQueued s m).time = s.time ∧
      (discardQueued s m).slots = s.slots ∧ (discardQueued s m).race = s.race ∧
      (discardQueued s m).replica = s.replica ∧ (discardQueued s m).fieldNumber = s.fieldNumber ∧
      (discardQueued s m).dropped = s.dropped ∧ (discardQueued s m).bulk = s.bulk ∧
      (discardQueued s m).settings = s.settings ∧ (discardQueued s m).freeCount = s.freeCount ∧
      (discardQueued s m).pending = s.pending := by
  unfold discardQueued
  try dsimp only
  (repeat' split) <;> simp

/-- The loss of the ring changes the slot engine, the seat unit, the bulk unit and the port alone. -/
@[simp] theorem ringLoss_leaves  (s : State) :
    (ringLoss s).link = s.link ∧ (ringLoss s).cyc = s.cyc ∧ (ringLoss s).survey = s.survey ∧
      (ringLoss s).time = s.time ∧ (ringLoss s).race = s.race ∧ (ringLoss s).replica = s.replica ∧
      (ringLoss s).fieldNumber = s.fieldNumber ∧ (ringLoss s).dropped = s.dropped ∧
      (ringLoss s).settings = s.settings ∧ (ringLoss s).freeCount = s.freeCount ∧
      (ringLoss s).pending = s.pending := by
  unfold ringLoss
  exact ⟨(foldl_keeps State.link (fun s a => by simp) _ _).trans (by simp),
    (foldl_keeps State.cyc (fun s a => by simp) _ _).trans (by simp),
    (foldl_keeps State.survey (fun s a => by simp) _ _).trans (by simp),
    (foldl_keeps State.time (fun s a => by simp) _ _).trans (by simp),
    (foldl_keeps State.race (fun s a => by simp) _ _).trans (by simp),
    (foldl_keeps State.replica (fun s a => by simp) _ _).trans (by simp),
    (foldl_keeps State.fieldNumber (fun s a => by simp) _ _).trans (by simp),
    (foldl_keeps State.dropped (fun s a => by simp) _ _).trans (by simp),
    (foldl_keeps State.settings (fun s a => by simp) _ _).trans (by simp),
    (foldl_keeps State.freeCount (fun s a => by simp) _ _).trans (by simp),
    (foldl_keeps State.pending (fun s a => by simp) _ _).trans (by simp)⟩

/-- A GAME served changes the port alone. -/
@[simp] theorem serveGame_leaves (m : SlotMsg) (s : State) :
    ((serveGame m s).1).link = s.link ∧ ((serveGame m s).1).cyc = s.cyc ∧
      ((serveGame m s).1).survey = s.survey ∧ ((serveGame m s).1).time = s.time ∧
      ((serveGame m s).1).slots = s.slots ∧ ((serveGame m s).1).race = s.race ∧
      ((serveGame m s).1).seat = s.seat ∧ ((serveGame m s).1).replica = s.replica ∧
      ((serveGame m s).1).fieldNumber = s.fieldNumber ∧ ((serveGame m s).1).dropped = s.dropped ∧
      ((serveGame m s).1).bulk = s.bulk ∧ ((serveGame m s).1).settings = s.settings ∧
      ((serveGame m s).1).freeCount = s.freeCount ∧ ((serveGame m s).1).pending = s.pending := by
  unfold serveGame
  try dsimp only
  (repeat' split) <;> simp

/-- A POLL served changes the seat unit and the port alone. -/
@[simp] theorem servePoll_leaves  (s : State) :
    ((servePoll s).1).link = s.link ∧ ((servePoll s).1).cyc = s.cyc ∧ ((servePoll s).1).survey = s.survey ∧
      ((servePoll s).1).time = s.time ∧ ((servePoll s).1).slots = s.slots ∧ ((servePoll s).1).race = s.race ∧
      ((servePoll s).1).replica = s.replica ∧ ((servePoll s).1).fieldNumber = s.fieldNumber ∧
      ((servePoll s).1).dropped = s.dropped ∧ ((servePoll s).1).bulk = s.bulk ∧
      ((servePoll s).1).settings = s.settings ∧ ((servePoll s).1).freeCount = s.freeCount ∧
      ((servePoll s).1).pending = s.pending := by
  unfold servePoll
  try dsimp only
  (repeat' split) <;> simp

/-- A TABLE WRITE served changes the settings alone. -/
@[simp] theorem serveTableWrite_leaves (p : List Byte) (s : State) :
    ((serveTableWrite p s).1).link = s.link ∧ ((serveTableWrite p s).1).cyc = s.cyc ∧
      ((serveTableWrite p s).1).survey = s.survey ∧ ((serveTableWrite p s).1).time = s.time ∧
      ((serveTableWrite p s).1).slots = s.slots ∧ ((serveTableWrite p s).1).race = s.race ∧
      ((serveTableWrite p s).1).seat = s.seat ∧ ((serveTableWrite p s).1).replica = s.replica ∧
      ((serveTableWrite p s).1).fieldNumber = s.fieldNumber ∧ ((serveTableWrite p s).1).dropped = s.dropped ∧
      ((serveTableWrite p s).1).bulk = s.bulk ∧ ((serveTableWrite p s).1).port = s.port ∧
      ((serveTableWrite p s).1).freeCount = s.freeCount ∧ ((serveTableWrite p s).1).pending = s.pending := by
  unfold serveTableWrite
  try dsimp only
  (repeat' split) <;> simp

/-- A TABLE READ served changes nothing. -/
@[simp] theorem serveTableRead_leaves (p : List Byte) (s : State) :
    ((serveTableRead p s).1).link = s.link ∧ ((serveTableRead p s).1).cyc = s.cyc ∧
      ((serveTableRead p s).1).survey = s.survey ∧ ((serveTableRead p s).1).time = s.time ∧
      ((serveTableRead p s).1).slots = s.slots ∧ ((serveTableRead p s).1).race = s.race ∧
      ((serveTableRead p s).1).seat = s.seat ∧ ((serveTableRead p s).1).replica = s.replica ∧
      ((serveTableRead p s).1).fieldNumber = s.fieldNumber ∧ ((serveTableRead p s).1).dropped = s.dropped ∧
      ((serveTableRead p s).1).bulk = s.bulk ∧ ((serveTableRead p s).1).port = s.port ∧
      ((serveTableRead p s).1).settings = s.settings ∧ ((serveTableRead p s).1).freeCount = s.freeCount ∧
      ((serveTableRead p s).1).pending = s.pending := by
  unfold serveTableRead
  try dsimp only
  (repeat' split) <;> simp

/-- A slot served changes the block that serves it and the port alone. -/
@[simp] theorem serveSlot_leaves (m : SlotMsg) (s : State) :
    ((serveSlot m s).1).link = s.link ∧ ((serveSlot m s).1).cyc = s.cyc ∧
      ((serveSlot m s).1).survey = s.survey ∧ ((serveSlot m s).1).time = s.time ∧
      ((serveSlot m s).1).slots = s.slots ∧ ((serveSlot m s).1).race = s.race ∧
      ((serveSlot m s).1).replica = s.replica ∧ ((serveSlot m s).1).fieldNumber = s.fieldNumber ∧
      ((serveSlot m s).1).dropped = s.dropped ∧ ((serveSlot m s).1).freeCount = s.freeCount ∧
      ((serveSlot m s).1).pending = s.pending := by
  unfold serveSlot fromAnchor
  (repeat' split) <;> simp

/-- A broadcast copied changes the seat unit, the replica store, the computation in progress and the port alone. -/
@[simp] theorem copyBroadcast_leaves (m : SlotMsg) (s : State) :
    (copyBroadcast m s).link = s.link ∧ (copyBroadcast m s).cyc = s.cyc ∧
      (copyBroadcast m s).survey = s.survey ∧ (copyBroadcast m s).slots = s.slots ∧
      (copyBroadcast m s).race = s.race ∧ (copyBroadcast m s).fieldNumber = s.fieldNumber ∧
      (copyBroadcast m s).dropped = s.dropped ∧ (copyBroadcast m s).bulk = s.bulk ∧
      (copyBroadcast m s).settings = s.settings ∧ (copyBroadcast m s).freeCount = s.freeCount ∧
      (copyBroadcast m s).pending = s.pending := by
  unfold copyBroadcast
  try dsimp only
  (repeat' split) <;> simp

/-- A held slot lost changes the held-slot list, the referral record and the port alone. -/
@[simp] theorem loseHeld_leaves (place : Nat) (s : State) :
    (loseHeld place s).link = s.link ∧ (loseHeld place s).cyc = s.cyc ∧ (loseHeld place s).survey = s.survey ∧
      (loseHeld place s).time = s.time ∧ (loseHeld place s).seat = s.seat ∧
      (loseHeld place s).replica = s.replica ∧ (loseHeld place s).fieldNumber = s.fieldNumber ∧
      (loseHeld place s).dropped = s.dropped ∧ (loseHeld place s).bulk = s.bulk ∧
      (loseHeld place s).settings = s.settings ∧ (loseHeld place s).freeCount = s.freeCount ∧
      (loseHeld place s).pending = s.pending := by
  unfold loseHeld
  try dsimp only
  (repeat' split) <;> simp

/-- The held slots lost change the held-slot list, the referral record and the port alone. -/
@[simp] theorem loseAllHeld_leaves  (s : State) :
    (loseAllHeld s).link = s.link ∧ (loseAllHeld s).cyc = s.cyc ∧ (loseAllHeld s).survey = s.survey ∧
      (loseAllHeld s).time = s.time ∧ (loseAllHeld s).seat = s.seat ∧ (loseAllHeld s).replica = s.replica ∧
      (loseAllHeld s).fieldNumber = s.fieldNumber ∧ (loseAllHeld s).dropped = s.dropped ∧
      (loseAllHeld s).bulk = s.bulk ∧ (loseAllHeld s).settings = s.settings ∧
      (loseAllHeld s).freeCount = s.freeCount ∧ (loseAllHeld s).pending = s.pending := by
  unfold loseAllHeld
  try dsimp only
  (repeat' split) <;> simp

/-- A slot carried forward may draw a free count. -/
@[simp] theorem carry_leaves (m : SlotMsg) (s : State) :
    ((carry m s).2).link = s.link ∧ ((carry m s).2).cyc = s.cyc ∧ ((carry m s).2).survey = s.survey ∧
      ((carry m s).2).time = s.time ∧ ((carry m s).2).slots = s.slots ∧ ((carry m s).2).race = s.race ∧
      ((carry m s).2).seat = s.seat ∧ ((carry m s).2).replica = s.replica ∧
      ((carry m s).2).fieldNumber = s.fieldNumber ∧ ((carry m s).2).dropped = s.dropped ∧
      ((carry m s).2).bulk = s.bulk ∧ ((carry m s).2).port = s.port ∧ ((carry m s).2).settings = s.settings ∧
      ((carry m s).2).pending = s.pending := by
  unfold carry
  try dsimp only
  (repeat' split) <;> simp

/-- A JOIN served changes the held-slot list, the race controller and the port alone. -/
@[simp] theorem serveJoin_leaves (place : Nat) (m : SlotMsg) (s : State) :
    ((serveJoin place m s).1).link = s.link ∧ ((serveJoin place m s).1).cyc = s.cyc ∧
      ((serveJoin place m s).1).survey = s.survey ∧ ((serveJoin place m s).1).time = s.time ∧
      ((serveJoin place m s).1).seat = s.seat ∧ ((serveJoin place m s).1).replica = s.replica ∧
      ((serveJoin place m s).1).fieldNumber = s.fieldNumber ∧ ((serveJoin place m s).1).dropped = s.dropped ∧
      ((serveJoin place m s).1).bulk = s.bulk ∧ ((serveJoin place m s).1).settings = s.settings ∧
      ((serveJoin place m s).1).freeCount = s.freeCount ∧ ((serveJoin place m s).1).pending = s.pending := by
  unfold serveJoin
  try dsimp only
  (repeat' split) <;> simp

/-- A held JOIN served changes the held-slot list, the race controller and the port alone. -/
@[simp] theorem serveHeld_leaves (place : Nat) (s : State) :
    ((serveHeld place s).1).link = s.link ∧ ((serveHeld place s).1).cyc = s.cyc ∧
      ((serveHeld place s).1).survey = s.survey ∧ ((serveHeld place s).1).time = s.time ∧
      ((serveHeld place s).1).seat = s.seat ∧ ((serveHeld place s).1).replica = s.replica ∧
      ((serveHeld place s).1).fieldNumber = s.fieldNumber ∧ ((serveHeld place s).1).dropped = s.dropped ∧
      ((serveHeld place s).1).bulk = s.bulk ∧ ((serveHeld place s).1).settings = s.settings ∧
      ((serveHeld place s).1).freeCount = s.freeCount ∧ ((serveHeld place s).1).pending = s.pending := by
  unfold serveHeld
  try dsimp only
  (repeat' split) <;> simp

/-- A LEAVE served changes the race controller, the timebase and the port alone. -/
@[simp] theorem serveLeave_leaves (m : SlotMsg) (s : State) :
    ((serveLeave m s).1).link = s.link ∧ ((serveLeave m s).1).cyc = s.cyc ∧
      ((serveLeave m s).1).survey = s.survey ∧ ((serveLeave m s).1).slots = s.slots ∧
      ((serveLeave m s).1).seat = s.seat ∧ ((serveLeave m s).1).replica = s.replica ∧
      ((serveLeave m s).1).fieldNumber = s.fieldNumber ∧ ((serveLeave m s).1).dropped = s.dropped ∧
      ((serveLeave m s).1).bulk = s.bulk ∧ ((serveLeave m s).1).settings = s.settings ∧
      ((serveLeave m s).1).freeCount = s.freeCount ∧ ((serveLeave m s).1).pending = s.pending := by
  unfold serveLeave
  try dsimp only
  (repeat' split) <;> simp

end Sys2Proof.Machine
end

