-- ==== Sys2Proof/Laws/Tables.lean ====
section
/-! SUPPORT. Clamped writes and wrapping reads of the tables. -/

namespace Sys2Proof.Machine

open Sys2Proof

/-- A clamped value lies in its range. -/
theorem clamp_mem (lo hi v : Nat) (h : lo ≤ hi) : lo ≤ clamp lo hi v ∧ clamp lo hi v ≤ hi := by
  unfold clamp
  omega

/-- A value in its range is not clamped. -/
theorem clamp_of_mem (lo hi v : Nat) (h : lo ≤ v) (h' : v ≤ hi) : clamp lo hi v = v := by
  unfold clamp
  omega

/-- A saturated value lies in its range. -/
theorem saturate_mem (lo hi v : Int) (h : lo ≤ hi) : lo ≤ saturate lo hi v ∧ saturate lo hi v ≤ hi := by
  unfold saturate
  omega

/-- A write leaves the size of the table. -/
@[simp] theorem length_writeAt (range : Nat → Nat × Nat) (table : List Nat) (l : List (Nat × Nat)) :
    (writeAt range table l).length = table.length := by
  induction l generalizing table with
  | nil => rfl
  | cons p l ih => obtain ⟨i, v⟩ := p; simp [writeAt, ih]

/-- A write leaves every entry that it does not name. -/
theorem writeAt_other (range : Nat → Nat × Nat) (table : List Nat) (l : List (Nat × Nat)) (i : Nat)
    (h : ∀ p ∈ l, p.1 ≠ i) : (writeAt range table l).getD i 0 = table.getD i 0 := by
  induction l generalizing table with
  | nil => rfl
  | cons p l ih =>
    obtain ⟨j, v⟩ := p
    rw [writeAt, ih _ fun p hp => h p (List.mem_cons_of_mem _ hp)]
    have hj : j ≠ i := h (j, v) List.mem_cons_self
    simp [List.getD_eq_getElem?_getD, hj]

/-- Consecutive places: as many as asked for. -/
@[simp] theorem length_wrapPlaces (size start n : Nat) : (wrapPlaces size start n).length = n := by
  simp [wrapPlaces]

/-- Consecutive places lie in the table. -/
theorem wrapPlaces_lt (size start n : Nat) (h : 0 < size) : ∀ i ∈ wrapPlaces size start n, i < size := by
  intro i hi
  simp only [wrapPlaces, List.mem_map] at hi
  obtain ⟨k, -, rfl⟩ := hi
  exact Nat.mod_lt _ h

/-- The entries read: one for each place. -/
@[simp] theorem length_readAt (table places : List Nat) : (readAt table places).length = places.length := by
  simp [readAt]

end Sys2Proof.Machine
end

