-- ==== Sys2Proof/Tests/Slice0.lean ====
section
/-! SUPPORT. Tests: the checks of WellFormed refused one by one, the worked examples of the spec, and for every
statement with hypotheses a concrete state and operands that meet them, clause by clause. -/

namespace Sys2Proof.Tests

set_option Elab.async false

open Sys2Proof Sys2Proof.Machine Sys2Proof.Safety

/-! ## Well-formed commands: one ill-formed term for each check -/

theorem test_wellFormed_refuses_events :
    Instr.wellFormed (.foreignFrame .cycle { symbols := [], ending := .endSymbol, slowHeader := false } (some 609))
        = false ∧
      Instr.wellFormed (.lossOfSignal (some { kind := .cycle, symbols := [], sent := some 609 })) = false ∧
      Instr.wellFormed (.errorRunLimit (.inside { kind := .cycle, symbols := [], sent := some 609 })) = false ∧
      Instr.wellFormed (.standby { fits := true, cut := some { kind := .collect, symbols := [], sent := some 609 } }) = false ∧
      Instr.wellFormed (.collectReturn { symbols := [], ending := .endSymbol, slowHeader := false } 65536) = false ∧
      Instr.wellFormed (.lostCarLimit 8) = false ∧ Instr.wellFormed (.receiveIdleLimit 4) = false := by decide +kernel

theorem test_wellFormed_refuses_station_commands :
    Instr.wellFormed (.configure true 256 2 1 0 0) = false ∧ Instr.wellFormed (.configure true 0 256 1 0 0) = false ∧
      Instr.wellFormed (.configure true 0 2 256 0 0) = false ∧
      Instr.wellFormed (.status true (.car 256)) = false ∧ Instr.wellFormed (.status true (.replica 256)) = false ∧
      Instr.wellFormed (.status true (.unknown 256)) = false ∧ Instr.wellFormed (.setReady true 256) = false ∧
      Instr.wellFormed (.requestAttention true 256) = false := by decide +kernel

theorem test_wellFormed_refuses_race_commands :
    Instr.wellFormed (.startRace true 65536) = false ∧ Instr.wellFormed (.raceSetupWrite true 256 [1]) = false ∧
      Instr.wellFormed (.raceSetupWrite true 0 [65536]) = false ∧
      Instr.wellFormed (.raceSetupWrite true 0 (List.replicate 128 1)) = false ∧
      Instr.wellFormed (.raceSetupRead true 256 1) = false ∧ Instr.wellFormed (.raceSetupRead true 0 256) = false ∧
      Instr.wellFormed (.gridWrite true 256 [1]) = false ∧ Instr.wellFormed (.gridWrite true 0 [65536]) = false ∧
      Instr.wellFormed (.gridRead true 256 1) = false ∧ Instr.wellFormed (.gridRead true 0 256) = false ∧
      Instr.wellFormed (.admitCar true (.car 256)) = false := by decide +kernel

/-- The arguments of a Car Report, all 0. -/
def noReport : CarReportArgs :=
  { x := 0, y := 0, z := 0, vx := 0, vy := 0, vz := 0, heading := 0, yaw := 0, laps := 0, crossing := 0,
    appearance := 0 }

theorem test_wellFormed_refuses_seat_commands :
    Instr.wellFormed (.join true 256 [65, 66, 67]) = false ∧ Instr.wellFormed (.join true 0 [65]) = false ∧
      Instr.wellFormed (.leave true 256) = false ∧ Instr.wellFormed (.carReport true 256 noReport) = false ∧
      Instr.wellFormed (.carReport true 0 { noReport with x := 2147483648 }) = false ∧
      Instr.wellFormed (.carReport true 0 { noReport with y := -2147483649 }) = false ∧
      Instr.wellFormed (.carReport true 0 { noReport with z := 2147483648 }) = false ∧
      Instr.wellFormed (.carReport true 0 { noReport with vx := 2147483648 }) = false ∧
      Instr.wellFormed (.carReport true 0 { noReport with vy := 2147483648 }) = false ∧
      Instr.wellFormed (.carReport true 0 { noReport with vz := -2147483649 }) = false ∧
      Instr.wellFormed (.carReport true 0 { noReport with yaw := 32768 }) = false ∧
      Instr.wellFormed (.carReport true 0 { noReport with laps := 256 }) = false := by decide +kernel

theorem test_wellFormed_refuses_message_commands :
    Instr.wellFormed (.poll true 256) = false ∧ Instr.wellFormed (.game true 256 none 0 []) = false ∧
      Instr.wellFormed (.game true 0 none 256 []) = false ∧
      Instr.wellFormed (.game true 0 none 0 (List.replicate 255 0)) = false ∧
      Instr.wellFormed (.remoteTableWrite true 256 .settings 0 [1]) = false ∧
      Instr.wellFormed (.remoteTableWrite true 0 (.unknown 2) 0 [1]) = false ∧
      Instr.wellFormed (.remoteTableWrite true 0 .settings 256 [1]) = false ∧
      Instr.wellFormed (.remoteTableWrite true 0 .settings 0 [65536]) = false ∧
      Instr.wellFormed (.remoteTableRead true 256 .settings 0 1) = false ∧
      Instr.wellFormed (.remoteTableRead true 0 (.unknown 256) 0 1) = false ∧
      Instr.wellFormed (.remoteTableRead true 0 .settings 256 1) = false ∧
      Instr.wellFormed (.remoteTableRead true 0 .settings 0 256) = false := by decide +kernel

theorem test_wellFormed_refuses_bulk_and_table_commands :
    Instr.wellFormed (.bulkOpen true 256 1 1 false false) = false ∧
      Instr.wellFormed (.bulkOpen true 1 256 1 false false) = false ∧
      Instr.wellFormed (.bulkOpen true 1 1 65536 false false) = false ∧
      Instr.wellFormed (.bulkData true 256 [0]) = false ∧
      Instr.wellFormed (.bulkData true 1 (List.replicate 255 0)) = false ∧
      Instr.wellFormed (.bulkAbort true 256) = false ∧
      Instr.wellFormed (.tableWrite true (.unknown 0) 0 [1]) = false ∧
      Instr.wellFormed (.tableWrite true .settings 256 [1]) = false ∧
      Instr.wellFormed (.tableWrite true .settings 0 [65536]) = false ∧
      Instr.wellFormed (.tableRead true (.unknown 1) 0 1) = false ∧
      Instr.wellFormed (.tableRead true .settings 256 1) = false ∧
      Instr.wellFormed (.tableRead true .settings 0 256) = false := by decide +kernel

/-- No row of the table gives bits: no word spells a command. -/
theorem test_no_word_spells_a_command : decodeTableWord 8 0x20 = none ∧ decodeTableWord 0 0 = none := by decide

/-! ## The spec's worked examples -/

/-- The check over the ASCII digits 1 to 9 is 29B1h (R176). -/
theorem test_check_of_nine_digits :
    check [0x31, 0x32, 0x33, 0x34, 0x35, 0x36, 0x37, 0x38, 0x39] = 0x29B1 := by decide +kernel

/-- The largest offset: position 11 of 12 stations with a round trip of 2,000 units is 186 µs (R32). -/
theorem test_largest_offset : surveyOffset 12 2000 11 = 186 := by decide

/-- The displacements of R129's table, halves away from zero. -/
theorem test_displacements :
    roundAway (50000 * 28667) 1000000 = 1433 ∧ roundAway (50000 * 45334) 1000000 = 2267 ∧
      roundAway (3 * 500000) 1000000 = 2 ∧ roundAway (-3 * 500000) 1000000 = -2 ∧
      roundAway (-50000 * 10001) 1000000 = -500 ∧ roundAway (262143 * 250000) 1000000 = 65536 := by decide

/-- A GO report: 15 bytes, the length byte 14, then G, link time, race time and the late flag, the most
significant byte first (R50, R166, R176). -/
theorem test_go_report :
    (reportFrame (.go 0x01020304 0x01020305 1 true)).length = 15 ∧
      reportByteAt (.go 0x01020304 0x01020305 1 true) 0 = 14 ∧
      (reportFrame (.go 0x01020304 0x01020305 1 true)).drop 2 = [1, 2, 3, 4, 1, 2, 3, 5, 0, 0, 0, 1, 1] := by
  decide +kernel

/-- A table read's reply carries its values as 16-bit numbers, the most significant byte first (R89, R176). -/
theorem test_values_reply : replyDataBytes (.values [3, 513]) = [2, 0, 3, 2, 1] := by decide +kernel

/-- The arguments of a Start Race are its lead, the most significant byte first; too many bytes do not suit it
(R46, R163, R176). -/
theorem test_start_race_arguments :
    parseCommand .startRace [0x0F, 0xA0] = .startRace true 4000 ∧
      frameFits (parseCommand .startRace [0x0F, 0xA0, 0]) = false := by decide +kernel

/-- A car near the edge saturates at 8,388,607 (R129). -/
theorem test_position_saturates : extrapolate 8380000 262143 250000 = 8388607 := by decide

/-- A heading wraps: 65,400 turning 20,000 a second for 12 ms is 104 (R130). -/
theorem test_heading_wraps : extrapolateHeading 65400 20000 12000 = 104 := by decide

/-- A residual of −229 with k = 4 becomes −171; 1 with k = 1 becomes 0; k = 16 leaves 0 (R133). -/
theorem test_decay : decayOne 4 (-229) = -171 ∧ decayOne 1 1 = 0 ∧ decayOne 16 4096 = 0 := by decide

/-! ## Small states -/

/-- The settings of a station with address, role code, seat count, title 7, revision 1 and serial 500. -/
def settingsOf (a r n : Nat) : List Nat := (settingsDefaults 500).take 12 ++ [a, r, n, 7, 1, 0, 0, 500]

/-- A station in a ring state, its receiver UP. -/
def station (a r n : Nat) (ring : RingState) : State :=
  { State.reset with
    settings := { State.reset.settings with entries := settingsOf a r n },
    cyc := { State.reset.cyc with ring := ring, silence := some 0 },
    link := { State.reset.link with rx := .up, tx := txFor ring .up, byp := false } }

/-- A map of the stations 0, 3 and 5. -/
def smallMap : RingMap :=
  { addr := [0, 3, 5] ++ List.replicate 9 15, off := [0, 5, 9] ++ List.replicate 9 0 }

/-- An anchor at address 0 in CYCLING, in a phase of the race. -/
def anchorIn (p : Phase) : State :=
  { station 0 1 1 .cycling with
    race := { State.reset.race with phase := p },
    cyc := { State.reset.cyc with ring := .cycling, nextBoundary := some 500 },
    survey := { State.reset.survey with map := smallMap, epoch := 1, counter := 1 } }

/-- A header of epoch 1 in a phase. -/
def headerIn (p : Phase) : Header :=
  { serial := 500, cycle := 7, epoch := 1, linkStamp := 1000000, raceStamp := 5000, phase := p, held := false,
    causes := HeldCauses.none, goTime := 900000, lapTotal := 3, periodCode := 1, rollEnable := true,
    newcomer := false, claim := 0, roll := 0, attention := 0, map := smallMap,
    summary := List.replicate 8 vacantSummary }

/-- A racer at address 3 with one seat, MAPPED by epoch 1. -/
def racer : State :=
  { station 3 2 1 .mapped with
    cyc := { State.reset.cyc with ring := .mapped, mappedEpoch := 1, silence := some 0,
                                  mirrors := some (headerIn .idle) } }

/-- A SOLO station. -/
def solo : State := station 0 4 1 .cycling

/-- The station before Configure. -/
def cabinet : State := station 0 0 0 .unconfigured

/-- A cycle frame of 608 bytes with a header and 0 in every byte behind it. -/
def frameOf (h : Header) : RxFrame :=
  { symbols := toSymbols (headerBytes h ++ List.replicate 544 0), ending := .endSymbol, slowHeader := false }

/-- A frame with a code error in its header. -/
def spoiled : RxFrame :=
  { symbols := .codeError :: List.replicate 63 (.data 0), ending := .endSymbol, slowHeader := false }

/-- Bytes without a code error have no run that ends a frame (R2). -/
theorem errorCut_bytes (b : List Byte) (n : Nat) : errorCut n (toSymbols b) = none := by
  induction b generalizing n with
  | nil => rfl
  | cons x b ih => simpa [toSymbols, errorCut] using ih 0

theorem frameOf_clean (h : Header) : errorCut 0 (frameOf h).symbols = none := errorCut_bytes _ 0

theorem frameOf_header (h : Header) (hs : h.summary.length = 8) (hd : decodeHeader (headerBytes h) = some h) :
    parseHeader (headerPart (frameOf h).symbols) = some h := by
  rw [← hd, ← parseHeader_headerBytes h hs]
  have hl : 64 = (toSymbols (headerBytes h)).length := by simp [toSymbols, length_headerBytes h hs]
  have he : (frameOf h).symbols = toSymbols (headerBytes h) ++ toSymbols (List.replicate 544 0) := by
    simp only [frameOf, toSymbols, List.map_append]
  unfold headerPart
  rw [he, hl, List.take_left]

/-- The cycle header of R176's layout, written and read back. -/
theorem test_header_reads_back (p : Phase) :
    parseHeader (headerPart (frameOf (headerIn p)).symbols) = some (headerIn p) :=
  frameOf_header _ rfl (by cases p <;> decide +kernel)

/-- A report FIFO with 3 bytes free. -/
def roomForThree (s : State) : State :=
  { s with port := { s.port with
    reports := List.replicate 65 (.outcome .game 0 0 .lost) ++ List.replicate 10 (.pollComplete 0) } }

/-- A report FIFO with 2 bytes free. -/
def roomForTwo (s : State) : State :=
  { s with port := { s.port with reports := List.replicate 66 (.outcome .game 0 0 .lost) } }

/-- A car of the station 0, seat A, in a state. -/
def carIn (st : CarState) : Car :=
  { Car.vacant with state := st, owner := some { station := 0, seat := 0 }, tag := [65, 66, 67], timer := some 0 }

/-- An anchor in a phase with car 0 in a state. -/
def withCar (p : Phase) (st : CarState) : State :=
  { anchorIn p with race := { (anchorIn p).race with cars := (anchorIn p).race.cars.set 0 (carIn st) } }

/-- The race with held causes. -/
def holding (fault command : Bool) (s : State) : State :=
  { s with race := { s.race with causes := { fault := fault, command := command } } }

/-- A join of station 3, seat A. -/
def someJoin : JoinRequest := { station := 3, seat := 0, tag := [65, 66, 67], title := 7, revision := 1 }

/-- The race with a referral record. -/
def referred (r : Referral) (s : State) : State := { s with race := { s.race with referral := r } }

/-- A timebase with a GO schedule and race status. -/
def timed (go : GoSchedule) (st : RaceStatus) (race : Micros) (s : State) : State :=
  { s with time := { s.time with go := go, raceStatus := st, race := race } }

/-! ## Witnesses: the hypotheses of each statement are met, clause by clause -/

theorem test_witness_ReportsFindTheirPlace :
    reportFree (roomForThree racer) = reportSize (.reply .nothing (.done .none)) ∧
      reportFree (roomForTwo racer) < reportSize (.reply .nothing (.done .none)) ∧
      portCommand (.restart true) = some .restart ∧
      { racer.port with waiting := some (.pollComplete 0) }.waiting ≠ none ∧
      noticeOf (.pollComplete 0) = some .poll ∧ racer.port.notices = [] ∧
      reportFree (roomForThree racer) = reportSize (.pollComplete 0) ∧
      reportFree (roomForTwo racer) < reportSize (.pollComplete 0) := by decide +kernel

theorem test_witness_PortCommandsAreTestedInOrder :
    (portCommand (.hold true) = some .hold ∧ takenUnconfigured .hold = false ∧ canTake cabinet = true ∧
      configured cabinet = false) ∧
    (portCommand (.hold false) = some .hold ∧ frameFits (.hold false) = false ∧ CommandReady racer) ∧
    (anchorCommand .hold = true ∧ frameFits (.hold true) = true ∧ CommandReady racer ∧
      actingAnchor racer = false) ∧ [1, 2, 3, 4, 5, 6, 7, 8, 9].length ≤ 9 ∧
    (List.replicate 30 8).length ≤ 30 := by decide +kernel

theorem test_witness_CommandsOutOfPlaceAreRefused :
    (∀ p ∈ [Phase.idle, .gathering, .countdown, .running, .closing, .results], AnchorReady (anchorIn p) ∧
      (anchorIn p).race.phase = p) ∧
    (∀ k ∈ (anchorIn .gathering).race.cars, k.state ≠ .entered) ∧
    (anchorIn .running).race.causes.command = false ∧ anyCause (anchorIn .running).race.causes = false ∧
    (CommandReady (anchorIn .idle) ∧ nodeRole (anchorIn .idle) = false) ∧
    (canTake racer = true ∧ configured racer = true) ∧ (canTake cabinet = true ∧ configured cabinet = false) ∧
    (14 < 15 ∧ 4 < 5 ∧ 2 < 3) := by decide +kernel

theorem test_witness_LinkPortFollowsTheLine :
    (isSolo racer = false ∧ racer.link.rx = .up) ∧
    (isSolo racer = false ∧ { racer.link with rx := .down }.rx = .down) ∧ isSolo solo = true ∧
    (1 ≤ 8 ∧ racer.link.errorRun + 8 = 8 ∧ { racer.link with errorRun := 7 }.errorRun + 1 = 8) ∧
    ({ racer.link with fillRun := 63 }.fillRun + 1 = 64 ∧ racer.link.fillRun + 64 = 64) ∧
    (solo.link.loop = none ∧ (∃ x ∈ [GapSymbol.other], x ≠ GapSymbol.fill) ∧
      { solo.link with loop := some { kind := .cycle, symbols := [], left := 2 } }.loop ≠ none) ∧
    (anchorRole racer = false ∧ (errorCut 0 (List.replicate 8 RxSym.codeError)).isSome = true ∧
      nodeTakes (station 3 2 1 .standby).cyc.ring = false) := by decide +kernel

/-- The eighth code error takes the receiver DOWN, the seventh does not, and another symbol ends the run (R2).
-/
theorem test_code_errors_counted :
    ((hearGap (List.replicate 8 .codeError) racer).link.rx = .down ∧
      (hearGap (List.replicate 7 .codeError) racer).link.errorRun = 7) ∧
    (hearGap (List.replicate 7 .codeError ++ [.other, .codeError]) racer).link.errorRun = 1 := by decide +kernel

theorem test_witness_SilenceMovesTheNode :
    (racer.cyc.ring = .mapped ∧ racer.cyc.silence ≠ none ∧ racer.bulk.recv.length = 4) ∧
    ((station 3 2 1 .unmapped).cyc.ring = .unmapped ∧ (station 3 2 1 .unmapped).cyc.silence ≠ none) := by
  decide +kernel

/-- A racer that has appended to the survey of epoch 1 and is UNMAPPED. -/
def surveyed : State :=
  { station 3 2 1 .unmapped with survey := { State.reset.survey with surveyedEpoch := 1 } }

theorem test_witness_HeaderMovesTheRingState :
    (NodeTakes spoiled racer ∧ parseHeader (headerPart spoiled.symbols) = none) ∧
    (NodeTakes (frameOf (headerIn .idle)) racer ∧
      parseHeader (headerPart (frameOf (headerIn .idle)).symbols) = some (headerIn .idle)) ∧
    lists smallMap (address racer) = true ∧ racer.cyc.mappedEpoch = 1 ∧
    (NodeTakes (frameOf (headerIn .idle)) surveyed ∧ surveyed.survey.surveyedEpoch = 1 ∧
      surveyed.cyc.mappedEpoch = 0) ∧
    (NodeTakes (frameOf (headerIn .idle)) (station 3 2 1 .listening) ∧
      (station 3 2 1 .listening).survey.surveyedEpoch = 0) := by
  simp only [NodeTakes, frameOf_clean, test_header_reads_back]; decide +kernel

/-- The racer's link time far ahead of the header's. -/
def ahead : State := { racer with time := { racer.time with link := 2000000 } }

theorem test_witness_MappedNodeAlignsLinkTime :
    NodeTakes (frameOf (headerIn .idle)) ahead ∧
    parseHeader (headerPart (frameOf (headerIn .idle)).symbols) = some (headerIn .idle) ∧
    signedDiff (1000000 + BitVec.ofNat 32 (offsetAt smallMap 1 + 25)) ahead.time.link < 0 ∧
    ¬ signedDiff (1000000 + BitVec.ofNat 32 (offsetAt smallMap 1 + 25)) racer.time.link < 0 ∧
    NodeTakes (frameOf (headerIn .idle)) surveyed := by
  simp only [NodeTakes, frameOf_clean, test_header_reads_back]; decide +kernel

theorem test_witness_MappedNodeAlignsRaceTime :
    (∀ p, ∀ g ∈ [GoSchedule.none, .armed 1, .armed 900000, .fired 1, .fired 900000],
      let s := timed g .counting 5030 racer
      NodeTakes (frameOf (headerIn p)) s ∧
        parseHeader (headerPart (frameOf (headerIn p)).symbols) = some (headerIn p) ∧
        (headerIn p).phase = p ∧ HeaderMaps (headerIn p) s ∧ s.time.go = g) ∧
    (headerIn .running).held = false ∧ { headerIn .running with held := true }.held = true ∧
    ¬ 5000 + offsetAt smallMap 1 + 25 < (5030 : Micros).toNat ∧
    5000 + offsetAt smallMap 1 + 25 < (5031 : Micros).toNat ∧ (4294967295 : Micros).toNat = 4294967295 ∧
    ¬ HeaderMaps (headerIn .running) (station 3 2 1 .listening) ∧
    NodeTakes (frameOf (headerIn .running)) (station 3 2 1 .listening) ∧
    HeaderMaps (headerIn .countdown) surveyed ∧
    (0 ≤ signedDiff 1000030 (headerIn .countdown).goTime ∧ ¬ 0 ≤ signedDiff 899999 900000) := by
  refine ⟨?_, ?_⟩
  · simp only [NodeTakes, frameOf_clean, test_header_reads_back]
    intro p g hg
    cases p <;> fin_cases hg <;> decide +kernel
  · simp only [NodeTakes, frameOf_clean]
    decide +kernel

/-- The held header of a running race. -/
def heldHeader : Header :=
  { headerIn .running with held := true, causes := { fault := false, command := true } }

theorem test_held_header_reads_back :
    parseHeader (headerPart (frameOf heldHeader).symbols) = some heldHeader := frameOf_header _ rfl (by decide +kernel)

theorem test_witness_NodeMarksTheHeader :
    NodeTakes (frameOf (headerIn .idle)) racer ∧ NodeTakes (frameOf (headerIn .idle)) (station 3 2 1 .listening) ∧
    parseHeader (headerPart (frameOf (headerIn .idle)).symbols) = some (headerIn .idle) ∧
    (∀ c, some c = some 11 → c ≤ 11) := by
  simp only [NodeTakes, frameOf_clean, test_header_reads_back]
  refine ⟨by decide +kernel, by decide +kernel, trivial, ?_⟩
  intro c h
  cases h
  decide

/-- A queued message with an arrival order and destination. -/
def queued (c : MsgClass) (order dest : Nat) : QueuedMsg :=
  { kind := .game, cls := c, dest := dest, tag := order, payload := [], order := order, seat := 0 }

/-- The racer with an urgent message behind a normal one, channel 2 ready between them, and an ordering mode. -/
def posting (order dest urgentUsed : Nat) : State :=
  { racer with
    slots := { racer.slots with
      urgent := [queued .urgent 9 5], normal := [queued .normal 3 dest], urgentUsed := urgentUsed,
      inForce := { urgent := 2, normal := 1, order := order, starvation := 8 } },
    bulk := { racer.bulk with send := [SendChannel.reset,
      { SendChannel.reset with state := .active, peer := 0, total := 30, remaining := 30, supplied := 30,
                               buffer := List.replicate 30 7, ready := some 6 }] } }

/-- A pass over the slots of one frame, nothing posted yet. -/
def fresh : SlotPass :=
  { stopped := false, offered := false, starving := true, passedOver := false, postedNormal := false }

/-- In PASS-SAFE an urgent message passes an older one to another station, and waits behind one to its own; in
IN-ORDER the oldest goes first; a channel's segment goes before the normal queue (R61, R62). -/
theorem test_ordering_modes :
    (choose (posting 1 0 0) true = some (.queued (queued .urgent 9 5))) ∧
      (choose (posting 1 5 0) true = some (.channel 2)) ∧
      (choose (posting 0 0 0) true = some (.queued (queued .normal 3 0))) ∧
      (choose (posting 2 5 0) false = some (.queued (queued .urgent 9 5))) ∧
      (choose (posting 2 5 2) false = none) := by decide +kernel

theorem test_witness_NodeMarksTheHeader_posting :
    (fresh.stopped = false ∧ (posting 0 0 0).slots.outstanding.length < 4) ∧
    ((posting 2 0 0).slots.urgent = [queued .urgent 9 5] ∧ (queued .urgent 9 5).cls = .urgent ∧
      (posting 2 0 0).slots.inForce.order = 2 ∧ (posting 2 0 0).slots.urgentUsed < 2 ∧
      ¬ (posting 2 0 2).slots.urgentUsed < 2) ∧
    ((posting 1 5 0).slots.normal = [queued .normal 3 5] ∧ (queued .normal 3 5).order < (queued .urgent 9 5).order ∧
      (posting 1 5 0).slots.normalUsed < 1 ∧ (chanAt (posting 1 5 0) 1).ready = none ∧
      (chanAt (posting 1 5 0) 2).ready = some 6 ∧ (chanAt (posting 1 5 0) 2).abortPending = false) ∧
    ((queued .normal 3 0).order < 6 ∧ (posting 0 0 0).slots.inForce.order = 0) ∧
    (racer.slots.urgent = [] ∧ racer.slots.normal = [] ∧ (chanAt racer 1).ready = none ∧
      (chanAt racer 2).ready = none) := by decide +kernel

/-- A collect header with an entry count. -/
def collectHeader (n : Nat) : CollectHeader :=
  { serial := 500, epoch := 1, attempt := 1, pass := 1, count := n, overflow := false }

/-- A collect frame with a header of an entry count `n` and `k` bytes behind it. -/
def collectFrame (n k : Nat) : RxFrame :=
  { symbols := toSymbols (collectHeaderBytes (collectHeader n)) ++ List.replicate k (.data 0),
    ending := .endSymbol, slowHeader := false }

theorem test_witness_CollectFrameAtANode :
    (NodeTakes (collectFrame 11 165) racer ∧
      parseCollectHeader ((collectFrame 11 165).symbols.take 13) = some (collectHeader 11) ∧
      (collectHeader 11).count < 12 ∧
      (collectFrame 11 165).symbols.length = 13 + 15 * (collectHeader 11).count) ∧
    (NodeTakes (collectFrame 12 180) racer ∧
      parseCollectHeader ((collectFrame 12 180).symbols.take 13) = some (collectHeader 12)) ∧
    (NodeTakes spoiled racer ∧ parseCollectHeader (spoiled.symbols.take 13) = none) := by decide +kernel

/-- A GAME slot from one station to another. -/
def gameSlot (source dest : Nat) : SlotMsg :=
  { answered := false, relay := 0, cls := .urgent, hold := false, source := source, dest := dest, kind := .game,
    tag := 4, outcome := 0, len := 2, payload := [1, 2] ++ List.replicate 22 0 }

/-- The same slot answered ACCEPTED. -/
def answeredSlot (source dest : Nat) : SlotMsg :=
  { gameSlot source dest with answered := true, outcome := 1, len := 0, payload := List.replicate 24 0 }

/-- The outstanding entry of a GAME to station 5 in place 2. -/
def gameEntry : Outstanding :=
  { kind := .game, cls := .urgent, tag := 4, dest := 5, place := 2, broadcast := false, waited := 3,
    progress := .waiting, channel := none, seat := 0, spared := false }

/-- A station with that entry. -/
def posted (s : State) : State := { s with slots := { s.slots with outstanding := [gameEntry] } }

/-- The GAME outcome's report needs 31 bytes: a FIFO with 33 free, and one with 2. -/
theorem test_witness_SlotsAtANode :
    (address racer = 3 ∧ (answeredSlot 3 5).answered = true ∧ (answeredSlot 3 5).source = address racer ∧
      racer.slots.outstanding = []) ∧
    ((∀ p ∈ (posted racer).slots.outstanding, p = gameEntry) ∧ gameEntry.progress = .waiting ∧
      outcomeOf (answeredSlot 3 5).outcome (answeredSlot 3 5).body = some (.accepted []) ∧
      reportSize (.outcome .game 4 5 (.accepted [])) ≤ reportFree (posted racer) ∧
      reportFree (roomForTwo (posted racer)) < reportSize (.outcome .game 4 5 (.accepted []))) ∧
    ((answeredSlot 5 3).answered = true ∧ (answeredSlot 5 3).source ≠ address racer) ∧
    ((gameSlot 5 3).dest = address racer ∧
      reportSize (.gameIn 5 .urgent 4 (gameSlot 5 3).body false) ≤ reportFree racer ∧
      reportFree (roomForTwo racer) < reportSize (.gameIn 5 .urgent 4 (gameSlot 5 3).body false)) ∧
    (mirrorAnchor racer = some 0 ∧ mirrorAnchor racer ≠ some 5) ∧
    ((gameSlot 3 15).source = address racer ∧ (gameSlot 3 15).relay ≠ 1) ∧
    (mirrorPosition racer = some 1 ∧ positionOf (mirrorMap racer) 5 = some 2 ∧
      positionOf (mirrorMap racer) 0 = some 0 ∧ positionOf (mirrorMap racer) 9 = none) ∧
    ((gameSlot 3 5).dest ≠ address racer ∧ (gameSlot 3 5).source = address racer ∧
      (gameSlot 5 0).source ≠ address racer) := by decide +kernel

theorem test_witness_RelayFollowsItsTable :
    let s := anchorIn .idle
    (address s = 0 ∧ parseSlot (toSymbols (slotBytes none)) = some none ∧ parseSlot [] = none) ∧
    (∀ m ∈ [gameSlot 3 0, gameSlot 3 5, { gameSlot 3 5 with relay := 15 }, gameSlot 3 9, gameSlot 3 15,
        { gameSlot 3 15 with relay := 14 }, { gameSlot 3 15 with kind := .poll }, { gameSlot 3 5 with hold := true },
        gameSlot 9 0, answeredSlot 0 3, answeredSlot 3 5, { answeredSlot 3 5 with relay := 15 },
        answeredSlot 9 3], parseSlot (toSymbols (slotBytes (some m))) = some (some m)) ∧
    (lists s.survey.map 3 = true ∧ lists s.survey.map 5 = true ∧ lists s.survey.map 9 = false) ∧
    s.slots.held = [] ∧ s.slots.outstanding = [] ∧
    reportSize (.gameIn 3 .urgent 4 (gameSlot 3 0).body false) ≤ reportFree s ∧
    (reportFree (roomForTwo s) < reportSize (.gameIn 3 .urgent 4 (gameSlot 3 0).body false) ∧
      lists s.survey.map 0 = true) := by decide +kernel

/-- A receive entry of station 5, channel 1, that expects segment 4,095. -/
def entryOfFive : ReceiveEntry :=
  { source := 5, channel := 1, expected := 4095, total := 40, received := 20, idle := 3, limit := 2000000 }

/-- The racer with that entry OPEN. -/
def receiving : State := { racer with bulk := { racer.bulk with recv := [none, some entryOfFive, none, none] } }

/-- Every receive entry OPEN for another stream. -/
def crowded : State :=
  { racer with bulk := { racer.bulk with recv := List.replicate 4 (some { entryOfFive with source := 7 }) } }

theorem test_witness_SegmentsAtTheirDestination :
    (receiving.bulk.recv.length = 4 ∧ crowded.bulk.recv.length = 4 ∧ racer.bulk.recv.length = 4) ∧
    (∀ e ∈ crowded.bulk.recv, e.map (·.source) ≠ some 5) ∧ none ∉ crowded.bulk.recv ∧
    (recvAt receiving 0 = none ∧ recvAt receiving 1 = some entryOfFive) ∧
    (4095 = entryOfFive.expected ∧ entryOfFive.received + 20 ≤ entryOfFive.total ∧
      ¬ entryOfFive.received + 21 ≤ entryOfFive.total) ∧
    (reportSize (.bulkSegmentIn 5 1 4095 [0] false 21 40) ≤ reportFree receiving ∧
      reportFree (roomForTwo receiving) < reportSize (.bulkSegmentIn 5 1 4095 [0] false 21 40)) ∧
    ((0 : Nat) ≠ entryOfFive.expected ∧ (∀ k < 0, recvAt receiving k ≠ none) ∧ 0 ≤ 1 ∧
      (0 = 1 ∨ recvAt receiving 0 = none) ∧
      reportSize (.bulkFailedReceive 5 1 .restarted 20 40) + reportSize (.bulkSegmentIn 5 1 0 [0] false 1 40) ≤
        reportFree receiving) := by decide +kernel

/-- A FIFO with 33 bytes free has room for the segment's report, and not for the RESTARTED report beside it. -/
theorem test_witness_SegmentsAtTheirDestination_restarted :
    let s : State := { receiving with port := { receiving.port with
      reports := List.replicate 65 (.outcome .game 0 0 .lost) } }
    reportSize (.bulkSegmentIn 5 1 0 [0] false 1 40) ≤ reportFree s ∧
      reportFree s < reportSize (.bulkFailedReceive 5 1 .restarted 20 40) +
        reportSize (.bulkSegmentIn 5 1 0 [0] false 1 40) ∧ recvAt s 1 = some entryOfFive := by decide +kernel

theorem test_witness_BoundaryEmitsACycleFrame :
    actingAnchor (anchorIn .idle) = true ∧ (anchorIn .idle).cyc.ring = .cycling ∧
    (anchorIn .idle).cyc.awaited = none ∧ (anchorIn .idle).cyc.nextBoundary = some 500 := by decide +kernel

/-- An anchor that surveys, with a pass to send or awaited. -/
def surveying (emitted : Bool) (pass : Nat) (first : Option PassResult) (attempt : Nat) : State :=
  { anchorIn .idle with
    cyc := { (anchorIn .idle).cyc with ring := .surveying },
    survey := { (anchorIn .idle).survey with
      run := some { newRun with emitted := emitted, pass := pass, first := first, attempt := attempt } } }

theorem test_witness_BoundaryEmitsACollectPass :
    let s := surveying false 1 none 1
    actingAnchor s = true ∧ s.cyc.ring = .surveying ∧ s.cyc.awaited = none ∧ s.cyc.nextBoundary = some 500 ∧
      s.survey.run = some { newRun with emitted := false } := by decide +kernel

/-- An anchor that has missed returns and awaits frame 7. -/
def missing (p : Phase) : State :=
  { anchorIn p with cyc := { (anchorIn p).cyc with missed := 2, awaited := some 7 } }

/-- An anchor whose claim has an age. -/
def claimed (age : Nat) : State :=
  { anchorIn .idle with slots := { (anchorIn .idle).slots with claim := 2, claimAge := age } }

theorem test_witness_MissedReturnsStall :
    (∀ p ∈ [Phase.idle, .gathering, .countdown, .running, .closing, .results],
      actingAnchor (missing p) = true ∧ (missing p).cyc.ring = .cycling ∧ (missing p).cyc.awaited = some 7 ∧
        setup (missing p) 5 = (missing p).cyc.missed + 1 ∧ (missing p).cyc.nextBoundary = some 500) ∧
    (actingAnchor (claimed 64) = true ∧ (claimed 64).slots.claim ≠ 0 ∧
      (addrAt (claimed 64).survey.map 2).isSome = true ∧ 64 ≤ (claimed 64).slots.claimAge) := by decide +kernel

/-- The header that the anchor's own frame returns with. -/
def ownHeader (newcomer : Bool) : Header := { headerIn .idle with newcomer := newcomer }

theorem own_header_reads_back (b : Bool) :
    parseHeader (headerPart (frameOf (ownHeader b)).symbols) = some (ownHeader b) :=
  frameOf_header _ rfl (by cases b <;> decide +kernel)

theorem frameOf_length (h : Header) (hs : h.summary.length = 8) : (frameOf h).symbols.length = 608 := by
  simp only [frameOf, toSymbols, List.length_map, List.length_append, length_headerBytes h hs, List.length_replicate]

/-- The SOLO station with a frame in its loop. -/
def looped (k : FrameKind) (syms : List RxSym) (left : Nat) (s : State) : State :=
  { s with link := { s.link with loop := some { kind := k, symbols := syms, left := left } } }

/-- At an ANCHOR a clean frame is taken in the state with the run of code errors at 0, and at a SOLO station the
frame that the loop holds is taken when its µs have passed. -/
theorem test_witness_Returned (l : LoopFrame) (hk : l.kind = .cycle) (hl : errorCut 0 l.symbols = none) :
    (∀ s : State, anchorTakes s = true → isSolo s = false →
      Returned .cycle (loopReturn l) s { s with link := { s.link with errorRun := 0 } }) ∧
    ∀ s : State, anchorTakes s = true → isSolo s = true → s.link.loop = some l →
      Returned .cycle (loopReturn l) s
        { elapse l.left s with link := { s.link with errorRun := 0, loop := none } } :=
  ⟨fun _ ha hs => ⟨⟨ha, hl⟩, .inl ⟨hs, rfl⟩⟩, fun _ ha hs h => ⟨⟨ha, hl⟩, .inr ⟨hs, l, h, hk, rfl, rfl⟩⟩⟩

theorem test_witness_Returned_stations :
    (anchorTakes (missing .idle) = true ∧ isSolo (missing .idle) = false) ∧
    (anchorTakes (looped .cycle [.data 1] 245 solo) = true ∧ isSolo (looped .cycle [.data 1] 245 solo) = true ∧
      (looped .cycle [.data 1] 245 solo).link.loop = some { kind := .cycle, symbols := [.data 1], left := 245 } ∧
      errorCut 0 [RxSym.data 1] = none) := by decide +kernel

/-- Of a SOLO station with a frame in its loop, only that frame is what comes back. -/
theorem test_witness_loop_holds_another_frame :
    let s := looped .collect [] 0 solo
    isSolo s = true ∧ ∀ l, s.link.loop = some l → l.kind ≠ .cycle ∨ spoiled ≠ loopReturn l := by
  refine ⟨rfl, ?_⟩
  intro l h
  cases h
  decide

/-- The frame in the loop of a SOLO station that has come round is the event that is due (R19, R29). -/
theorem test_loop_comes_round :
    loopDue (looped .collect [.data 1] 0 solo) =
        [.collectReturn { symbols := [.data 1], ending := .endSymbol, slowHeader := false } 8] ∧
      loopDue (looped .collect [.data 1] 1 solo) = [] := by decide +kernel

theorem test_witness_CycleReturnIsTaken :
    let s := missing .idle
    (AnchorTakes spoiled s ∧ parseHeader (headerPart spoiled.symbols) = none) ∧
    (∀ b, AnchorTakes (frameOf (ownHeader b)) s ∧
      parseHeader (headerPart (frameOf (ownHeader b)).symbols) = some (ownHeader b) ∧
      (ownHeader b).serial = ownSerial s ∧ s.cyc.awaited = some (ownHeader b).cycle ∧
      (frameOf (ownHeader b)).symbols.length = 608) ∧
    (anchorIn .idle).cyc.awaited ≠ some (ownHeader false).cycle ∧ setup s 8 = 1 ∧ s.survey.latch = false ∧
    (let u : State := { s with cyc := { s.cyc with ring := .stalled } }
     AnchorTakes (frameOf (ownHeader false)) u) := by
  simp only [AnchorTakes, frameOf_clean, own_header_reads_back, frameOf_length (ownHeader _) rfl]
  decide +kernel

/-- A header of another anchor. -/
def foreignHeader (up : Bool) : Header := { headerIn .idle with serial := if up then 501 else 499 }

theorem foreign_header_reads_back (b : Bool) :
    parseHeader (headerPart (frameOf (foreignHeader b)).symbols) = some (foreignHeader b) :=
  frameOf_header _ rfl (by cases b <;> decide +kernel)

theorem test_witness_ForeignFrameDefersTheAnchor :
    let s := anchorIn .idle
    (∀ b, AnchorTakes (frameOf (foreignHeader b)) s ∧
      frameSerial .cycle (frameOf (foreignHeader b)).symbols = some (if b then 501 else 499)) ∧
    isSolo s = false ∧ (ownSerial s).toNat = 500 ∧
    (let u : State := { s with cyc := { s.cyc with ring := .deferred } }
     u.cyc.ring = .deferred ∧ role u = .anchor ∧ u.link.rx = .up ∧
       errorCut 0 (frameOf (headerIn .idle)).symbols = none) ∧
    (actingAnchor s = true ∧ s.link.rx = .up ∧ isSolo solo = true) := by
  simp only [AnchorTakes, frameOf_clean, frameSerial, foreign_header_reads_back]
  decide +kernel

/-- Eight code errors behind a good header end the frame there. -/
theorem test_witness_ForeignFrameDefersTheAnchor_cut (b : List Byte) :
    errorCut 0 (toSymbols b ++ List.replicate 9 .codeError) = some (toSymbols b ++ List.replicate 8 .codeError) := by
  induction b with
  | nil => rfl
  | cons x b ih => simpa [toSymbols, errorCut] using ih

/-- The entries of a survey of the anchor and one racer. -/
def twoEntries : List CollectEntry :=
  [ownEntry (anchorIn .idle),
   { address := 3, serial := 501, role := 2, seatCount := 1, title := 7, revision := 1 }]

/-- A returned collect frame of those entries. -/
def returned (attempt pass : Nat) (overflow : Bool) (l : List CollectEntry) : RxFrame :=
  { symbols := toSymbols (collectHeaderBytes
      { serial := 500, epoch := 2, attempt := attempt, pass := pass, count := l.length, overflow := overflow } ++
        l.flatMap entryBytes),
    ending := .endSymbol, slowHeader := false }

theorem test_witness_ReturnedPassIsJudged :
    let good (attempt pass : Nat) (overflow : Bool) (l : List CollectEntry) (s : State) : Prop :=
      AnchorTakes (returned attempt pass overflow l) s ∧ isSolo s = false ∧ s.cyc.ring = .surveying ∧
        parseCollectHeader ((returned attempt pass overflow l).symbols.take 13) =
          some { serial := 500, epoch := 2, attempt := attempt, pass := pass, count := l.length,
                 overflow := overflow } ∧
        ownSerial s = 500 ∧ 2 = s.survey.counter % 255 + 1 ∧
        parseEntries l.length ((returned attempt pass overflow l).symbols.drop 13) = some l
    let first : Option PassResult := some { entries := twoEntries, roundTrip := 100 }
    good 1 1 true twoEntries (surveying true 1 none 1) ∧
    (good 1 1 false (twoEntries ++ twoEntries) (surveying true 1 none 1) ∧
      sharedAddress (twoEntries ++ twoEntries) ≠ none) ∧
    (good 1 1 false twoEntries (surveying true 1 none 1) ∧ sharedAddress twoEntries = none) ∧
    good 2 2 false twoEntries (surveying true 2 first 2) ∧ good 3 2 false twoEntries (surveying true 2 first 3) ∧
    (¬ (102 + 2 < 100 ∨ 100 + 2 < 102) ∧ (103 + 2 < 100 ∨ 100 + 2 < 103)) := by
  refine ⟨?_, ?_, ?_, ?_, ?_, by decide⟩ <;> decide +kernel

theorem test_witness_SurveyOffsets :
    (1 ≤ twoEntries.length ∧ twoEntries.length ≤ 12 ∧ 2000 ≤ 2000) ∧
    (1 ≤ (List.replicate 12 (ownEntry racer)).length ∧ (List.replicate 12 (ownEntry racer)).length ≤ 12) := by
  decide +kernel

theorem test_witness_WaitsAndPulseEnd :
    { racer.time with linkStatus := .waiting }.linkStatus = .waiting ∧
    { racer.time with raceStatus := .waiting }.raceStatus = .waiting ∧
    (timed .none .counting 4294967295 racer).time.raceStatus = .counting ∧
    { racer.time with pulse := some 0 }.pulse = some 0 ∧
    { racer.time with linkStatus := .waiting, linkWait := 1 }.linkWait < 400 ∧
    { racer.time with raceStatus := .waiting, raceWait := 7 }.raceWait < 8 := by decide +kernel

/-- Of 400 µs a link wait of 1 takes 1 and the count the rest (R38). -/
theorem test_wait_leaves_the_rest :
    (elapseLink 400 { racer.time with link := 5, linkStatus := .waiting, linkWait := 1 }).link = 404 := by decide +kernel

theorem test_witness_GoFires :
    (let s := timed (.armed 1) .zero 0 (withCar .countdown .entered)
     actingAnchor s = true ∧ s.time.go = .armed 1 ∧ s.time.linkStatus = .counting ∧
       signedDiff s.time.link 1 < 0 ∧ (∃ k ∈ s.race.cars, k.state = .entered ∨ k.state = .racing)) ∧
    (let s := timed (.armed 1) .zero 0 (anchorIn .countdown)
     ¬ ∃ k ∈ s.race.cars, k.state = .entered ∨ k.state = .racing) ∧
    (∀ r ∈ [RingState.mapped, .unmapped, .listening, .lost],
      let s := timed (.armed 1) .zero 0 (station 3 2 1 r)
      nodeRole s = true ∧ nodeTakes s.cyc.ring = true ∧ s.time.go = .armed 1 ∧ s.time.linkStatus = .counting ∧
        signedDiff s.time.link 1 < 0) := by decide +kernel

/-- A racer with a field computation in progress. -/
def computing (s : State) : State := { s with time := { s.time with computation := some (startComputation s 1) } }

theorem test_witness_FieldEdgeAndItsBundle :
    (configured racer = true ∧ racer.time.computation = none ∧ configured cabinet = false) ∧
    ((computing racer).time.computation.isSome = true ∧ 208 ≤ reportFree (computing racer)) ∧
    reportFree (roomForTwo (computing racer)) < 208 := by decide +kernel

/-- A station with one outstanding entry of a kind that has waited 18 cycles. -/
def overdue (k : MsgKind) (s : State) : State :=
  { s with slots := { s.slots with outstanding := [{ gameEntry with kind := k, waited := 18, channel := some 2 }] } }

theorem test_witness_WaitLimitsCloseEntries :
    recvAt receiving 1 = some entryOfFive ∧
    (∀ k ∈ [MsgKind.game, .poll, .join, .bulkSegment],
      ((overdue k racer).slots.outstanding.filter fun p => p.progress == .waiting && decide (18 ≤ p.waited)) =
        [{ gameEntry with kind := k, waited := 18, channel := some 2 }]) ∧
    (reportSize (.outcome .game 4 5 .lost) ≤ reportFree racer ∧
      reportFree (roomForTwo racer) < reportSize (.outcome .game 4 5 .lost)) ∧
    seatAt (setSeat 0 (.requested [65, 66, 67]) racer) 0 = .requested [65, 66, 67] := by decide +kernel

/-- An anchor in CLOSING with a deadline, a racing car and a race time. -/
def closing (race : Micros) : State :=
  let s := withCar .closing .racing
  { s with race := { s.race with deadline := some 1000000 },
           time := { s.time with race := race, raceStatus := .frozen .held, go := .fired 0 } }

/-- Two racing cars. -/
def twoRacing (race : Micros) : State :=
  let s := closing race
  { s with race := { s.race with cars := s.race.cars.set 5 (carIn .racing) } }

theorem test_witness_DeadlineAndLostCars :
    (actingAnchor (closing 1000000) = true ∧ (closing 1000000).race.phase = .closing ∧
      (closing 1000000).race.deadline = some 1000000 ∧ (1000000 : Micros).toNat ≤ (closing 1000000).time.race.toNat) ∧
    ((timed (.fired 0) .counting 3 (closing 0)).time.raceStatus = .counting) ∧
    ((carAt (closing 1000000) 0).state = .racing ∧ (carAt (closing 1000000) 0).timer = some 0 ∧
      setup (closing 1000000) 4 * 100000 = 2000000 ∧
      (0 : Micros).toNat + setup (closing 2000000) 4 * 100000 ≤ (closing 2000000).time.race.toNat ∧
      (∀ b < 8, b ≠ 0 → (carAt (closing 2000000) b).state ≠ .racing)) ∧
    (carAt (twoRacing 2000000) 5).state = .racing := by decide +kernel

theorem test_witness_CommandBytesMakeFrames :
    (racer.port.writing = none ∧ cfull racer = false) ∧
    (let s : State := { racer with port := { racer.port with
        frames := [{ bytes := List.replicate 256 1, damaged := false, code := some 1 }] } }
     cfull s = true ∧ s.port.writing = none ∧ s.port.waiting = none) ∧
    (∀ f ∈ [PortFrame.mk [0] false none, ⟨[2, 9], true, some 9⟩, ⟨[1, 9], false, some 9⟩],
      f.bytes.length = 1 ∨ f.damaged = true ∨ 1 < f.bytes.length) := by decide +kernel

theorem test_witness_ReportsAreReadAndPlaced :
    (racer.port.reports = [] ∧ (roomForThree racer).port.reports.head? = some (.outcome .game 0 0 .lost) ∧
      (roomForThree racer).port.headRead + 1 < reportSize (.outcome .game 0 0 .lost) ∧
      30 + 1 = reportSize (.outcome .game 0 0 .lost)) ∧
    (reportSize (.pollComplete 0) ≤ reportFree (roomForThree racer) ∧
      reportFree (roomForTwo racer) < reportSize (.pollComplete 0)) ∧
    (reportSize (.notice [.go]) ≤ reportFree racer ∧
      reportFree (roomForThree racer) < reportSize (.notice [.go])) ∧
    (∀ b, Report.pollComplete 3 ≠ .bundle b) ∧
    (let o : Outstanding := { gameEntry with progress := .reportPending .lost 0 }
     let p : Outstanding := { gameEntry with progress := .reportPending .lost 1, tag := 9 }
     p ≠ o ∧ o ∈ [p, o] ∧ reportSize (.outcome .game 4 5 .lost) ≤ reportFree racer ∧
       reportFree (roomForTwo racer) < reportSize (.outcome .game 4 5 .lost)) := by
  refine ⟨by decide +kernel, by decide +kernel, by decide +kernel, ?_, by decide +kernel⟩
  intro b h
  cases h

theorem test_witness_ProtectionFollowsTheKey :
    CommandReady racer ∧ racer.settings.lock = false ∧ { racer.settings with lock := true }.lock = true := by
  decide +kernel

theorem test_witness_ConfigureStartsTheStation :
    canTake cabinet = true ∧ configured cabinet = false ∧ cabinet.settings.entries.length = 20 := by decide +kernel

theorem test_witness_RestartReturnsEveryBlock : CommandReady racer ∧ CommandReady (anchorIn .running) := by
  decide +kernel

theorem test_witness_StandbyAndResumeRing :
    (CommandReady racer ∧ nodeRole racer = true ∧ nodeTakes racer.cyc.ring = true ∧ racer.bulk.send.length = 2 ∧
      racer.bulk.recv.length = 4) ∧
    (CommandReady (station 3 2 1 .standby) ∧ nodeRole (station 3 2 1 .standby) = true) ∧
    (nodeReceives racer = true ∧ parseHeader (headerPart [RxSym.data 1]) = none ∧
      parseCollectHeader ([RxSym.data 1].take 13) = none) := by decide +kernel

/-- A frame of 3 bytes so far that Standby closes goes out with those 3 bytes (R20). -/
theorem test_standby_closes_the_frame :
    (cutFrame (some { kind := .cycle, symbols := [.data 1, .data 2, .data 3], sent := none }) racer).link.out =
      [{ kind := .cycle, symbols := [.data 1, .data 2, .data 3], looped := false }] := by decide +kernel

theorem test_witness_StatusReturnsTheState : canTake racer = true ∧ canTake cabinet = true ∧ 8 ≤ 8 := by
  decide +kernel

theorem test_witness_LocalTriggerStartsThePulse :
    (canTake racer = true ∧ configured racer = true ∧ racePhase racer = .idle) ∧
    (configured (anchorIn .running) = true ∧ racePhase (anchorIn .running) ≠ .idle) ∧ configured cabinet = false ∧
    (nodeRole (station 3 2 1 .listening) = true ∧ (station 3 2 1 .listening).cyc.mirrors = none) ∧
    (anchorRole (station 0 1 1 .deferred) = true ∧ (station 0 1 1 .deferred).cyc.ring = .deferred) := by
  decide +kernel

theorem test_witness_SurveyCommandStartsASurvey :
    (AnchorReady (anchorIn .idle) ∧ (anchorIn .idle).survey.run = none) ∧
    (AnchorReady (holding true false (anchorIn .running)) ∧
      anyCause (holding true false (anchorIn .running)).race.causes = true) ∧
    (AnchorReady (surveying false 1 none 1) ∧ (surveying false 1 none 1).survey.run ≠ none) := by decide +kernel

theorem test_witness_GatheringAndStart :
    (AnchorReady (anchorIn .idle) ∧ (anchorIn .idle).race.phase = .idle) ∧
    (AnchorReady (anchorIn .gathering) ∧ (anchorIn .gathering).race.referral = .free) ∧
    (AnchorReady (referred (.pending someJoin (.slot 2 3 4) 5) (anchorIn .gathering))) ∧
    (let s := referred (.pending { someJoin with station := 0 } .own 5) (anchorIn .gathering)
     let u := setSeat 0 (.requested [65, 66, 67]) s
     AnchorReady u ∧ seatAt u 0 = .requested [65, 66, 67]) ∧
    (let s := setSeat 0 (.requested [65, 66, 67])
        (referred (.pending { someJoin with station := 0 } .own 5) (withCar .gathering .entered))
     AnchorReady s ∧ seatAt s 0 = .requested [65, 66, 67] ∧ ∃ k ∈ s.race.cars, k.state = .entered) ∧
    (AnchorReady (withCar .gathering .entered) ∧
      ∃ k ∈ (withCar .gathering .entered).race.cars, k.state = .entered) := by decide +kernel

/-- An anchor in a phase with car 0 on the finish list. -/
def listed (p : Phase) : State :=
  let s := withCar p .finished
  { s with race := { s.race with finish := [{ car := 0, time := 900, confirmed := true }] } }

theorem test_witness_AbortAndClearEmptyTheRace :
    ∀ p ∈ [Phase.countdown, .running, .closing, .results], AnchorReady (anchorIn p) ∧
      (anchorIn p).race.finish = [] ∧ AnchorReady (listed p) ∧ (listed p).race.finish ≠ [] := by decide +kernel

theorem test_witness_HoldAndResume :
    (AnchorReady (anchorIn .running) ∧ (anchorIn .running).race.causes.command = false) ∧
    ∀ f, AnchorReady (holding f true (anchorIn .closing)) ∧
      (holding f true (anchorIn .closing)).race.causes = { fault := f, command := true } := by decide +kernel

theorem test_witness_TableWritesStore :
    (AnchorReady (anchorIn .idle) ∧ (anchorIn .idle).race.setup.length = 9 ∧
      (anchorIn .gathering).race.grid.length = 30 ∧ [1, 2, 3, 4, 5, 6, 7, 8, 9].length ≤ 9 ∧
      (List.replicate 30 8).length ≤ 30) ∧
    (CommandReady racer ∧ (List.replicate 12 1).length ≤ 12 ∧ racer.settings.entries.length = 20) := by
  decide +kernel

theorem test_witness_TableReadsReturnEntries :
    (canTake (anchorIn .running) = true ∧ anchorRole (anchorIn .running) = true) ∧
    (canTake cabinet = true ∧ configured cabinet = false) ∧ 1 ≤ 1 ∧ 9 ≤ 9 ∧ 30 ≤ 30 ∧ 20 ≤ 20 := by decide +kernel

theorem test_witness_ReferralIsDecided :
    (let s := referred (.pending someJoin (.slot 2 3 4) 5) (anchorIn .gathering)
     AnchorReady s ∧ s.race.cars.length = 8 ∧ (carAt s 0).state = .vacant ∧ (carAt s 7).state = .vacant) ∧
    (let s := referred (.pending { someJoin with station := 0 } .own 5)
        (setSeat 0 (.requested [65, 66, 67]) (withCar .gathering .finished))
     AnchorReady s ∧ (carAt s 0).state ≠ .vacant ∧ seatAt s 0 = .requested [65, 66, 67] ∧
       0 < s.seat.seats.length) ∧
    (let s := anchorIn .gathering
     let u : State := { s with race := { s.race with cars := List.replicate 8 (carIn .finished) } }
     (∀ c < 8, (carAt u c).state ≠ .vacant) ∧ u.race.referral = .free) := by decide +kernel

/-- A message of a class that waits in its queue. -/
def waitingMsg (c : MsgClass) : QueuedMsg :=
  { kind := .game, cls := c, dest := 5, tag := 1, payload := [], order := 0, seat := 0 }

/-- A station whose urgent queue holds 4 messages. -/
def queueFull (s : State) : State :=
  { s with slots := { s.slots with urgent := List.replicate 4 (waitingMsg .urgent) } }

/-- An anchor in GATHERING with a join mode. -/
def joining (mode : Nat) (s : State) : State := { s with race := { s.race with setup := s.race.setup.set 2 mode } }

theorem test_witness_JoinASeat :
    (canTake racer = true ∧ role racer = .racer ∧ racer.cyc.ring = .mapped ∧ 0 < seatCount racer ∧
      seatAt racer 0 = .unseated ∧ racer.slots.urgent.length < 4) ∧
    (canTake (queueFull racer) = true ∧ 4 ≤ (queueFull racer).slots.urgent.length) ∧
    (∀ mode ≤ 2, let s := joining mode (anchorIn .gathering)
      AnchorReady s ∧ 0 < seatCount s ∧ 0 < s.seat.seats.length ∧ s.race.cars.length = 8 ∧
        seatAt s 0 = .unseated ∧ setup s 2 = mode ∧ s.race.referral = .free ∧
        ∀ c < 8, (carAt s c).owner ≠ some { station := address s, seat := 0 }) ∧
    ((carAt (withCar .gathering .entered) 0).owner = some { station := 0, seat := 0 } ∧
      (carAt (withCar .gathering .entered) 0).state ≠ .vacant) ∧
    (let s := referred (.pending someJoin .own 5) (joining 2 (anchorIn .gathering))
     AnchorReady s ∧ setup s 2 = 2 ∧ s.race.referral ≠ .free ∧ seatAt s 0 = .unseated) := by decide +kernel

/-- A summary that shows car 7 owned by station 3, seat A. -/
def showingSeven : List CarSummary :=
  (List.replicate 8 vacantSummary).set 7 { vacantSummary with station := 3, state := .entered }

theorem test_witness_JoinASeat_mirror :
    (showingSeven.length = 8 ∧ ShowsSeat showingSeven 7 0 racer ∧ (∀ b < 7, ¬ ShowsSeat showingSeven b 0 racer)) ∧
    ((∀ c < 8, ¬ ShowsSeat (List.replicate 8 vacantSummary) c 0 racer) ∧ 0 < racer.seat.seats.length) ∧
    seatAt (setSeat 0 (.seated 7 [65, 66, 67]) racer) 0 = .seated 7 [65, 66, 67] ∧
    seatAt (setSeat 0 (.requested [65, 66, 67]) racer) 0 = .requested [65, 66, 67] := by
  refine ⟨by decide +kernel, by decide +kernel, by decide +kernel⟩

theorem test_witness_LeaveASeat :
    (let s := setSeat 0 (.seated 4 [65, 66, 67]) racer
     canTake s = true ∧ role s = .racer ∧ s.cyc.ring = .mapped ∧ 0 < seatCount s ∧
       seatAt s 0 = .seated 4 [65, 66, 67] ∧ leavePending s 0 = false ∧ s.slots.urgent.length < 4 ∧
       leavePending (queueFull s) 0 = false ∧ 4 ≤ (queueFull s).slots.urgent.length ∧
       leavePending { s with slots := { s.slots with outstanding :=
         [{ gameEntry with kind := .leave, seat := 0 }] } } 0 = true) ∧
    (∀ st ∈ [CarState.entered, .racing, .finished],
      let s := setSeat 0 (.seated 0 [65, 66, 67]) (withCar .running st)
      AnchorReady s ∧ 0 < seatCount s ∧ seatAt s 0 = .seated 0 [65, 66, 67] ∧ leavePending s 0 = false ∧
        s.race.cars.length = 8 ∧ (carAt s 0).owner = some { station := address s, seat := 0 }) ∧
    (let s := setSeat 0 (.seated 0 [65, 66, 67]) (anchorIn .running)
     AnchorReady s ∧ ∀ c < 8, (carAt s c).owner ≠ some { station := address s, seat := 0 }) := by decide +kernel

theorem test_witness_SeatUnitCommands :
    CommandReady racer ∧ 0 < seatCount racer ∧ seatCount racer ≤ 1 ∧ 1 ≤ 1 ∧ 1 < 2 ∧ 127 ≤ 127 ∧ 127 < 128 := by
  decide +kernel

theorem test_witness_MessagesJoinTheirQueue :
    (racer.slots.urgent.length + racer.slots.normal.length + racer.slots.outstanding.length < 256) ∧
    (AnchorReady (anchorIn .idle) ∧ (anchorIn .idle).slots.urgent.length < 4 ∧ 14 ≠ address (anchorIn .idle)) ∧
    (AnchorReady (queueFull (anchorIn .idle)) ∧ 4 ≤ (queueFull (anchorIn .idle)).slots.urgent.length) ∧
    (CommandReady racer ∧ role racer ≠ .observer ∧ racer.cyc.ring ≠ .deferred ∧ 15 ≠ address racer ∧
      (List.replicate 24 (0 : Byte)).length ≤ 24 ∧ ringReady racer = true ∧
      ringReady (station 3 2 1 .listening) = false ∧ tagInUse (posted racer).slots .game 4 = true ∧
      tagInUse racer.slots .game 4 = false ∧ racer.slots.normal.length < 8) ∧
    (let s : State := { racer with slots := { racer.slots with normal := List.replicate 8 (waitingMsg .normal) } }
     8 ≤ s.slots.normal.length ∧ tagInUse s.slots .game 4 = false) := by decide +kernel

/-- The racer with channel 2 ACTIVE. -/
def sending (supplied nextSeq : Nat) (pending : Bool) (out : Option SegmentOut) (buffer : List Byte) : State :=
  { racer with bulk := { racer.bulk with send := [SendChannel.reset,
      { SendChannel.reset with state := .active, peer := 5, total := 300, remaining := 300, supplied := supplied,
                               nextSeq := nextSeq, abortPending := pending, out := out, buffer := buffer }] } }

theorem test_witness_BulkCommandsMoveTheChannel :
    (canTake racer = true ∧ configured racer = true ∧ racer.bulk.send.length = 2 ∧ role racer ≠ .observer ∧
      ringReady racer = true ∧ 14 ≠ address racer ∧ (chanAt racer 1).state ≠ .active) ∧
    (let s := sending 256 0 false none (List.replicate 256 0)
     canTake s = true ∧ configured s = true ∧ s.bulk.send.length = 2 ∧ (chanAt s 2).state = .active ∧
       (chanAt s 2).nextSeq = 0 ∧ (chanAt s 2).out = none ∧ 256 < (chanAt s 2).buffer.length + 1) ∧
    (let s := sending 299 3 false (some (.segment 2 20)) []
     (chanAt s 2).supplied + 1 = (chanAt s 2).total ∧ (chanAt s 2).total < (chanAt s 2).supplied + 2 ∧
       (chanAt s 2).nextSeq ≠ 0 ∧ (chanAt s 2).out ≠ none) ∧
    (chanAt (sending 0 0 true none []) 2).abortPending = true := by decide +kernel

theorem test_witness_RemoteWriteIsAnswered :
    let m : SlotMsg := { gameSlot 0 3 with
      kind := .tableWrite, len := (tableWritePayload .settings 19 [1, 99]).length,
      payload := padPayload (tableWritePayload .settings 19 [1, 99]) }
    m.body = tableWritePayload .settings 19 [1, 99] ∧ mirrorAnchor racer = some m.source ∧
    racer.settings.entries.length = 20 ∧
    (∀ i ∈ [0, 1], protectedGroup racer.settings (settingGroup i) = false) ∧
    (let s : State := { racer with settings := { racer.settings with flag := true } }
     ∃ i ∈ [0, 1], protectedGroup s.settings (settingGroup i) = true) := by decide +kernel

/-- The block of car 0, owned by station 0's seat A, with laps and stamps. -/
def blockOf (laps : Nat) (stamp crossing : Micros) : CarBlock :=
  { car := 0, station := 0, seat := 0, valid := true,
    data := { linkStamp := 9, raceStamp := stamp, x := 1, y := -1, z := 0, vx := 3, vy := 0, vz := 0, heading := 5,
              yaw := -2, laps := laps, crossing := crossing, appearance := 1 } }

theorem test_witness_ReturnedBlockIsRead :
    let s := withCar .running .racing
    s.race.cars.length = 8 ∧ (carAt s 0).state = .racing ∧
    (carAt s 0).owner = some { station := 0, seat := 0 } ∧ setup s 0 = 3 ∧
    (∀ b ∈ [blockOf 2 1 1, blockOf 3 7 9, blockOf 1 0 0],
      parseBlock (toSymbols (blockBytes b)) = some b) ∧
    (carAt s 0).stamp.toNat < (blockOf 2 1 1).data.raceStamp.toNat ∧
    (blockOf 1 0 0).data.raceStamp.toNat ≤ (carAt s 0).stamp.toNat ∧ parseBlock [] = none := by decide +kernel

/-- The reports of a block that finishes car 0: PHASE in RUNNING, PLACING, PHASE of the race's end with no other
car RACING; with another, PLACING alone, or the deadline's PLACING and PHASE when it then stands reached; and of
a block that confirms an entry, PLACING (R78, R142, R144, R146, R147, R149). -/
theorem test_reports_of_a_block :
    let told (d : CarData) (s : State) : List ReportKind :=
      (readBlock 0 (toSymbols (blockBytes { blockOf 0 0 0 with data := d })) s).port.reports.map reportKind
    let finishing := (blockOf 3 7 7).data
    told finishing (withCar .running .racing) = [.phase, .placing, .phase] ∧
      told finishing (closing 8) = [.placing, .phase] ∧ told finishing (twoRacing 8) = [.placing] ∧
      told finishing (twoRacing 30000007) = [.placing, .placing, .phase] ∧
      (readBlock 0 (toSymbols (blockBytes (blockOf 3 7 7))) (twoRacing 8)).race.deadline = some 30000007 ∧
      (let s := withCar .closing .racing
       let u : State := { s with race := { s.race with finish := [{ car := 4, time := 6, confirmed := false }] } }
       told (blockOf 1 7 7).data u = [.placing] ∧ told (blockOf 1 6 6).data u = []) := by decide +kernel

/-- An entry of the replica store, and a summary that shows car 0 of station 5 in a state. -/
def entryIn (f : Freshness) : ReplicaEntry :=
  { fresh := f, owner := some { station := 5, seat := 0 }, data := some (blockOf 1 1 1).data, release := true,
    pres := none }

/-- A summary that shows car 0 of station 5 in a state. -/
def showing (st : CarState) : List CarSummary :=
  (List.replicate 8 vacantSummary).set 0 { vacantSummary with station := 5, state := st }

theorem test_witness_ReturnedBlockIsRead_replica :
    let s (f : Freshness) : State := { racer with replica := racer.replica.set 0 (entryIn f) }
    ((s .fresh).replica.length = 8 ∧ entryAt (s .gone) 0 = entryIn .gone ∧ (entryIn .gone).fresh = .gone) ∧
    (∀ st ∈ [CarState.retired, .unplaced, .racing, .finished],
      (summaryAt (showing st) 0).state = st ∧ (summaryAt (showing st) 0).station ≠ address racer ∧
        (entryIn .fresh).owner = some { station := (summaryAt (showing st) 0).station,
                                        seat := (summaryAt (showing st) 0).seat }) ∧
    (let b := { blockOf 1 1 1 with station := 5 }
     parseBlock (toSymbols (blockBytes b)) = some b ∧ b.valid = true ∧ b.station < 15 ∧
       (entryIn .fresh).release = true ∧
       (entryIn .fresh).data.map (·.appearance) = some b.data.appearance) := by decide +kernel

/-- The reports P1, P2 and P3 of the worked case of chapter 08. -/
def caseReport (stamp : Micros) (x vx : Int) (heading : Half) (yaw : Int) : CarData :=
  { linkStamp := stamp, raceStamp := 0, x := x, y := 0, z := 0, vx := vx, vy := 0, vz := 0, heading := heading,
    yaw := yaw, laps := 0, crossing := 0, appearance := 0 }

/-- Fields 3, 4 and 6 of the worked case: a new report corrects, no new report decays, and 5,411 snaps; each
with the residuals, position and heading of the case's table (R131 to R133). -/
theorem test_worked_case :
    let p1 := caseReport 5000000 1000000 50000 65400 20000
    let p2 := caseReport 5025000 1001500 49000 300 18000
    let p3 := caseReport 5090000 1010000 49000 1400 18000
    let s : State := { racer with settings := { racer.settings with
      entries := ((racer.settings.entries.set 7 100).set 8 4).set 9 4000 } }
    let shows (q : Presentation) : Int × Int × Int × Half := (q.rx, q.rh, q.px, q.ph)
    let two := presentCar s 5028667 (some (presentCar s 5012000 none p1)) p1
    let three := presentCar s 5045334 (some two) p2
    let five := presentCar s 5078668 (some (presentCar s 5062001 (some three) p2)) p2
    setting s 10 = 4096 ∧ shows two = (0, 0, 1001433, 437) ∧ shows three = (-171, 78, 1002325, 744) ∧
      shows five = (-96, 43, 1004034, 1309) ∧
      shows (presentCar s 5095335 (some five) p3) = (0, 0, 1010261, 1496) := by decide +kernel

theorem test_witness_ResidualsStayWithinTheSnap :
    setting racer 8 ≤ 16 ∧ 1 ≤ 1 ∧ 16 ≤ 16 ∧ (-229 : Int) ≠ 0 := by decide +kernel

theorem test_witness_PartsReadBackAsWritten :
    headerFits (headerIn .running) ∧ blockFits (blockOf 255 4294967295 0) ∧ slotFits (gameSlot 14 15) ∧
    collectHeaderFits (collectHeader 12) ∧
    entryFits { address := 14, serial := 281474976710655, role := 4, seatCount := 2, title := 7, revision := 1 } := by
  decide +kernel

/-- What each invariant asks is met at a state in the middle of a race. -/
theorem test_witness_StepKeepsPinsAndTables :
    (PinsFollow racer ∧ RingSuits racer ∧ TablesWhole racer) ∧
    (∀ i < 12, (settingRange i).1 ≤ racer.settings.entries.getD i 0 ∧
      racer.settings.entries.getD i 0 ≤ (settingRange i).2) ∧
    (∀ i < 9, (setupRange i).1 ≤ racer.race.setup.getD i 0 ∧ racer.race.setup.getD i 0 ≤ (setupRange i).2) ∧
    (∀ i < 30, (gridRange i).1 ≤ racer.race.grid.getD i 0 ∧ racer.race.grid.getD i 0 ≤ (gridRange i).2) := by
  decide +kernel

theorem test_witness_StepKeepsQueuesAndFifos :
    WithinLimits (queueFull racer) ∧ PortFits (roomForTwo racer) := by
  refine ⟨by decide +kernel, by decide +kernel, by decide +kernel, ?_, by decide +kernel⟩
  change (0 : Nat) < 31
  decide

/-- A race in CLOSING with car 0 racing behind a confirmed finisher in car 5. -/
def inRace : State :=
  let s := withCar .closing .racing
  { s with
    race := { s.race with
      cars := (s.race.cars.set 0 { carIn .racing with stamp := 9000 }).set 5
        { carIn .finished with owner := some { station := 3, seat := 0 }, finish := some 8000, timer := none },
      finish := [{ car := 5, time := 8000, confirmed := true }], deadline := some 30008000 },
    time := { s.time with go := .fired 0, race := 9500, raceStatus := .counting } }

theorem test_witness_StepKeepsTheRace : RaceKept inRace ∧ RaceKept racer := by decide +kernel

theorem test_witness_StepKeepsTheFinishOrder :
    RaceKept inRace ∧ FinishKept inRace ∧ ∃ e ∈ inRace.race.finish, e.confirmed = true := by decide +kernel

theorem test_witness_StepKeepsRacingCars : (carAt inRace 0).state = .racing := by decide +kernel

theorem test_witness_StepKeepsTheChannels :
    ∀ c ∈ (sending 256 0 false none (List.replicate 256 0)).bulk.send,
      (c.remaining ≤ c.total ∧ c.supplied ≤ c.total ∧ c.buffer.length ≤ 256 ∧
        (c.state = .active → outBytes c.out ≤ c.remaining) ∧
        (c.state = .active → c.abortPending = false →
          c.supplied = (c.total - c.remaining) + outBytes c.out + c.buffer.length)) ∧ readyAlone c := by
  decide +kernel

/-! ## Witnesses: the clauses of outcomes, slots at the anchor, passes and table commands -/

/-- A GAME entry turned into one of another kind, answered by the slot beside it. -/
def entryOf (k : MsgKind) : Outstanding := { gameEntry with kind := k, channel := some 2 }

/-- The racer, channel 2 ACTIVE with a segment outstanding, and one entry of a kind. -/
def awaiting (k : MsgKind) : State :=
  let s := sending 300 1 false (some (.segment 0 20)) (List.replicate 280 7)
  { s with slots := { s.slots with outstanding := [entryOf k] } }

theorem test_witness_outcomes_at_the_source :
    ∀ k ∈ [MsgKind.game, .poll, .join, .leave, .bulkSegment, .clearStations],
      let m : SlotMsg := { answeredSlot 3 5 with kind := k }
      m.answered = true ∧ m.source = address (awaiting k) ∧
        (∀ o ∈ (awaiting k).slots.outstanding, o = entryOf k) ∧ (entryOf k).progress = .waiting ∧
        (entryOf k).kind = m.kind ∧ (entryOf k).tag = m.tag ∧ (entryOf k).place = 2 ∧
        outcomeOf m.outcome m.body = some (.accepted []) ∧ (awaiting k).bulk.send.length = 2 ∧
        (chanAt (awaiting k) 2).state = .active ∧ (chanAt (awaiting k) 2).out = some (.segment 0 20) := by
  decide +kernel

/-- An ACCEPTED segment leaves 280 of the 300 bytes, and the next segment is ready (R154, R155). -/
theorem test_segment_accepted :
    let t := (nodeSlot 2 { answeredSlot 3 5 with kind := .bulkSegment } (awaiting .bulkSegment)).2
    (chanAt t 2).remaining = 280 ∧ (chanAt t 2).out = none ∧ (chanAt t 2).ready = some 0 ∧
      t.slots.outstanding = [] := by decide +kernel

/-- The racer with its Ready flag and attention, passed by a CLEAR STATIONS broadcast of the anchor. -/
theorem test_witness_copy_of_clear_stations :
    let s : State := { racer with seat := { racer.seat with ready := true, attentionPending := true } }
    let m : SlotMsg := { gameSlot 0 15 with kind := .clearStations }
    s.replica.length = 8 ∧ m.source ≠ address s ∧ mirrorPosition s = some 1 ∧
      positionOf (mirrorMap s) m.source = some 0 ∧ m.relay = 0 ∧
      (nodeSlot 2 m s).2.seat.ready = false ∧ (nodeSlot 2 m s).2.seat.attentionPending = false := by decide +kernel

/-- A JOIN slot of station 3, seat A, at the anchor. -/
def joinSlot : SlotMsg :=
  { gameSlot 3 0 with kind := .join, len := (joinPayload someJoin).length, payload := padPayload (joinPayload someJoin) }

/-- Its symbols. -/
def joinSymbols (hold : Bool) : List RxSym := toSymbols (slotBytes (some { joinSlot with hold := hold }))

theorem test_witness_join_slots :
    (∀ h, parseSlot (joinSymbols h) = some (some { joinSlot with hold := h })) ∧ joinOf joinSlot.body = someJoin ∧
    (∀ mode ≤ 2, let s := joining mode (anchorIn .gathering)
      joinSlot.dest = address s ∧ joinSlot.dest ≠ 15 ∧ lists s.survey.map joinSlot.source = true ∧
        lists s.survey.map joinSlot.dest = true ∧ s.race.cars.length = 8 ∧ s.slots.held = [] ∧
        (someJoin.title, someJoin.revision) = signature s ∧ setup s 2 = mode ∧ s.race.referral = .free ∧
        ∀ c < 8, (carAt s c).owner ≠ some { station := 3, seat := 0 }) ∧
    ((joinOf { gameSlot 5 0 with kind := .join }.body).station ≠ 5 ∧
      ({ someJoin with title := 8 }.title, someJoin.revision) ≠ signature (anchorIn .gathering)) ∧
    (∃ s, s = referred (.pending someJoin .own 5) (joining 2 (anchorIn .gathering)) ∧ s.race.referral ≠ .free) := by
  refine ⟨by decide +kernel, by decide +kernel, by decide +kernel, by decide +kernel, _, rfl, ?_⟩
  intro h
  cases h

/-- FIRST FREE gives car 0, answered in the slot with its relay count raised; in REFERRED mode the slot stays
POSTED with the hold mark, and the record is PENDING for 10 s (R69, R98, R99). -/
theorem test_join_slot_at_the_anchor :
    (let r := relaySlot 2 (joinSymbols false) (joining 0 (anchorIn .gathering))
     r.1.map (fun m => (m.answered, m.relay, m.outcome, m.payload.head?)) = some (true, 1, 1, some 0) ∧
       (carAt r.2 0).owner = some { station := 3, seat := 0 }) ∧
    (let r := relaySlot 2 (joinSymbols false) (joining 2 (anchorIn .gathering))
     r.1 = some { joinSlot with hold := true } ∧ r.2.race.referral = .pending someJoin (.slot 2 3 4) 10000000) := by
  decide +kernel

/-- The anchor with a held slot whose referral is DECIDED. -/
def decidedSlot : State :=
  let s := referred (.decided someJoin (.slot 2 3 4) (.accepted 6) 5) (anchorIn .gathering)
  { s with slots := { s.slots with held := [{ place := 2, source := 3, tag := 4 }] } }

/-- The held slot of a DECIDED referral is answered with car 6, and record and list are empty (R101). -/
theorem test_held_slot_is_answered :
    let r := relaySlot 2 (joinSymbols true) decidedSlot
    r.1.map (fun m => (m.answered, m.hold, m.outcome, m.payload.head?)) = some (true, false, 1, some 6) ∧
      r.2.race.referral = .free ∧ r.2.slots.held = [] := by decide +kernel

/-- A LEAVE slot of station 0's seat A, as another station could send it. -/
def leaveSlot (station seat : Byte) : SlotMsg :=
  { gameSlot 3 0 with kind := .leave, len := 2, payload := padPayload [station, seat] }

/-- An anchor with car 4 owned by station 3, seat A. -/
def ownedFour (p : Phase) (st : CarState) : State :=
  let s := anchorIn p
  { s with race := { s.race with
    cars := s.race.cars.set 4 { carIn st with owner := some { station := 3, seat := 0 } } } }

theorem test_witness_leave_slots :
    (∀ m ∈ [leaveSlot 3 0, leaveSlot 3 2, leaveSlot 9 0],
      parseSlot (toSymbols (slotBytes (some m))) = some (some m)) ∧
    (∀ st ∈ [CarState.entered, .racing, .finished],
      (carAt (ownedFour .running st) 4).owner = some { station := 3, seat := 0 } ∧
        ∀ b < 4, (carAt (ownedFour .running st) b).owner ≠ some { station := 3, seat := 0 }) ∧
    (∀ c < 8, (carAt (anchorIn .running) c).owner ≠ some { station := 3, seat := 0 }) := by decide +kernel

/-- A RACING car that its station leaves is RETIRED, and the slot carries the car and its state (R105). -/
theorem test_leave_slot_at_the_anchor :
    let r := relaySlot 2 (toSymbols (slotBytes (some (leaveSlot 3 0)))) (ownedFour .running .racing)
    (carAt r.2 4).reason = some .withdrawn ∧ r.1.map (fun m => m.payload.take 2) = some [4, 4] := by decide +kernel

/-- The anchor's own broadcast and own answered slot meet their entry; a POLL at the anchor, without mirrors, is
UNDELIVERABLE (R69, R70, R71). -/
theorem test_witness_relay_outcomes :
    let s := posted (anchorIn .idle)
    (∀ o ∈ s.slots.outstanding, o = gameEntry) ∧
    parseSlot (toSymbols (slotBytes (some (gameSlot 0 15)))) = some (some (gameSlot 0 15)) ∧
    (relaySlot 2 (toSymbols (slotBytes (some (gameSlot 0 15)))) s).2.slots.outstanding = [] ∧
    (relaySlot 2 (toSymbols (slotBytes (some (answeredSlot 0 3)))) s).2.slots.outstanding = [] ∧
    (s.cyc.mirrors = none ∧ parseSlot (toSymbols (slotBytes (some { gameSlot 3 0 with kind := .poll }))) =
      some (some { gameSlot 3 0 with kind := .poll })) := by decide +kernel

/-- Seven code errors of a gap, then a frame cut by Standby behind a good byte, then one code error: the run is
1 (R2). -/
theorem test_standby_counts_the_cut_frame :
    let s := hearGap (List.replicate 7 .codeError) racer
    let cut (l : List RxSym) : CutFrame := { kind := .cycle, symbols := l, sent := none }
    (standbyCut (some (cut [.data 1])) s).link.errorRun = 0 ∧
      (standbyCut (some (cut ([.data 1] ++ List.replicate 3 .codeError))) s).link.errorRun = 3 ∧
      (standbyCut (some (cut (List.replicate 9 .codeError))) s).link.rx = .down ∧
      errorCut 0 [RxSym.data 1] = none ∧ errorCut 0 ([.data 1] ++ List.replicate 3 .codeError) = none := by
  decide +kernel

/-- The short frames of R4: one that a START ends behind all its entries, and one that END ends a byte early. -/
theorem test_witness_collect_frame_short :
    let f : RxFrame := { collectFrame 11 165 with ending := .startInside }
    let g := collectFrame 11 164
    (NodeTakes f racer ∧ parseCollectHeader (f.symbols.take 13) = some (collectHeader 11) ∧
      f.ending ≠ .endSymbol) ∧
    (NodeTakes g racer ∧ parseCollectHeader (g.symbols.take 13) = some (collectHeader 11) ∧
      g.symbols.length < 13 + 15 * (collectHeader 11).count) := by decide +kernel

/-- R4, R28: a frame that END ends a byte before its entry is whole leaves at the same byte, and the node keeps its
surveyed epoch; a byte later it leaves 15 bytes longer, and the epoch is recorded. -/
theorem test_collect_frame_ended_early :
    let early := nodeCollect true (collectFrame 1 14).symbols racer
    let whole := nodeCollect true (collectFrame 1 15).symbols racer
    early.1.length = 27 ∧ early.2.survey = racer.survey ∧ early.2.cyc.silence = some 0 ∧
      whole.1.length = 43 ∧ whole.2.survey.surveyedEpoch = 1 := by decide +kernel

theorem test_witness_BoundaryEmitsACollectPass_missed :
    ∀ a ∈ [1, 2, 3], let s := surveying true 1 none a
      actingAnchor s = true ∧ s.cyc.ring = .surveying ∧ s.cyc.awaited = none ∧ s.cyc.nextBoundary = some 500 ∧
        s.survey.run = some { newRun with emitted := true, attempt := a } := by decide +kernel

/-- A survey in RUNNING, held by FAULT, with car 2 of station 9, which the pass does not list, and car 0 racing.
-/
def surveyedRace (cars : List (Nat × Nat)) : State :=
  let s := holding true false (surveying true 2 (some { entries := twoEntries, roundTrip := 100 }) 1)
  { s with
    race := { s.race with
      phase := .running,
      cars := cars.foldl (fun l c => l.set c.1 { carIn .racing with owner := some { station := c.2, seat := 0 } })
        s.race.cars },
    time := { s.time with race := 77, raceStatus := .frozen .held, go := .fired 0 } }

theorem test_witness_ReturnedPassIsJudged_missing :
    let s := surveyedRace [(0, 0), (2, 9)]
    AnchorTakes (returned 1 2 false twoEntries) s ∧ s.race.cars.length = 8 ∧
    lists (surveyMap twoEntries 100) 9 = false ∧ lists (surveyMap twoEntries 100) 0 = true ∧
    (carAt s 2).owner = some { station := 9, seat := 0 } ∧ (carAt s 2).state = .racing ∧
    (carAt s 0).state = .racing ∧ s.race.causes = { fault := true, command := false } ∧
    (∀ c < 8, (carAt (surveyedRace [(0, 0)]) c).owner ≠ some { station := 9, seat := 0 }) := by decide +kernel

/-- The missing station's car retires ABSENT and race time runs again; when it was the last, the race is over
(R34, R87, R147). -/
theorem test_survey_success_in_a_held_race :
    (let t := judgePass { newRun with emitted := true, pass := 2, first := some { entries := twoEntries, roundTrip := 100 } }
       false twoEntries 100 (surveyedRace [(0, 0), (2, 9)])
     (carAt t 2).reason = some .absent ∧ (carAt t 0).state = .racing ∧ t.race.phase = .running ∧
       t.race.causes.fault = false ∧ t.time.raceStatus = .counting) ∧
    (let t := judgePass { newRun with emitted := true, pass := 2, first := some { entries := twoEntries, roundTrip := 100 } }
       false twoEntries 100 (surveyedRace [(2, 9)])
     t.race.phase = .results ∧ t.time.raceStatus = .frozen .results) := by decide +kernel

/-- A local Table Write of the race setup stores and replies as its own write does (R173). -/
theorem test_table_write_of_the_setup :
    (localWrite true .raceSetup 8 [5, 4] (anchorIn .idle)).1.race.setup = [4, 30, 0, 10, 20, 3, 1, 1, 1] ∧
      (localRead true .grid 29 2 (anchorIn .idle)).2 = .done (.values [8, 8]) := by decide +kernel

theorem test_witness_table_commands_refused :
    (CommandReady racer ∧ actingAnchor racer = false ∧ anchorRole racer = false ∧ configured racer = true) ∧
    (CommandReady (anchorIn .running) ∧ actingAnchor (anchorIn .running) = true ∧
      (anchorIn .running).race.phase ≠ .idle ∧ (anchorIn .running).race.phase ≠ .gathering) ∧
    (List.replicate 10 1).length = 9 + 1 ∧ (List.replicate 31 1).length = 30 + 1 := by decide +kernel

theorem test_witness_messages_refused :
    (AnchorReady (queueFull (anchorIn .idle)) ∧ 4 ≤ (queueFull (anchorIn .idle)).slots.urgent.length ∧
      (queueFull (anchorIn .idle)).race.phase = .idle ∧ 14 ≠ address (queueFull (anchorIn .idle)) ∧
      15 ≠ address (anchorIn .idle)) ∧
    (CommandReady (station 3 3 0 .mapped) ∧ role (station 3 3 0 .mapped) = .observer) ∧
    (CommandReady (station 0 1 1 .deferred) ∧ (station 0 1 1 .deferred).cyc.ring = .deferred) ∧
    (CommandReady racer ∧ role racer ≠ .observer ∧ racer.cyc.ring ≠ .deferred ∧ 3 = address racer ∧
      15 < 16 ∧ 24 < (List.replicate 25 (0 : Byte)).length) := by decide +kernel

/-- A table message of the anchor for station 3 with a payload. -/
def tableMsg (k : MsgKind) (p : List Byte) : SlotMsg :=
  { gameSlot 0 3 with kind := k, len := p.length, payload := padPayload p }

theorem test_witness_remote_tables :
    mirrorAnchor racer = some 0 ∧
    (∀ k ∈ [MsgKind.tableWrite, .tableRead],
      byteAt (tableMsg k [1, 0, 1]).body 0 = 1 ∧ byteAt (tableMsg k [3, 0, 1]).body 0 = 3 ∧
        byteAt (tableMsg k [0, 0, 21]).body 2 = 21 ∧ byteAt (tableMsg k []).body 2 = 0) ∧
    (tableMsg .tableRead (tableReadPayload .settings 18 20)).body = tableReadPayload .settings 18 20 := by decide +kernel

/-- A read of 20 entries from entry 18 answers 11, the first two the serial's words 18 and 19 (R174). -/
theorem test_remote_read :
    (serveSlot (tableMsg .tableRead (tableReadPayload .settings 18 20)) racer).2 =
      some (.accepted ([0, 0, 1, 244] ++ (racer.settings.entries.take 9).flatMap (beBytes 2))) := by decide +kernel

/-- A station whose seat A is SEATED with car 0 and has an own report. -/
def driving (s : State) : State :=
  { s with seat := { s.seat with
      seats := [.seated 0 [65, 66, 67], .unseated], own := [some (blockOf 1 4 4).data, none] } }

/-- The anchor with car 0 of its own seat, its own report, and a CLEAR STATIONS queued. -/
def drivingAnchor : State :=
  let s := driving (withCar .idle .entered)
  { s with slots := { s.slots with
      urgent := [{ waitingMsg .urgent with kind := .clearStations, dest := 15 }],
      nextSlots := List.replicate 6 none } }

theorem test_witness_own_blocks_and_clear_stations :
    (actingAnchor drivingAnchor = true ∧ drivingAnchor.cyc.awaited = none ∧
      (carAt drivingAnchor 0).owner = some { station := address drivingAnchor, seat := 0 } ∧
      0 < seatCount drivingAnchor ∧ (carAt drivingAnchor 1).state = .vacant) ∧
    ((atBoundary drivingAnchor).link.out.map fun f => parseBlock (blockPart 0 f.symbols)) =
      [some { blockOf 1 4 4 with station := 0, seat := 0 }] ∧
    ((atBoundary drivingAnchor).link.out.map fun f => (parseSlot (slotPart 0 f.symbols)).map (·.map (·.kind))) =
      [some (some .clearStations)] := by decide +kernel

/-- A header whose summary shows car 0 owned by station 3, seat A. -/
def drivingHeader : Header :=
  { headerIn .gathering with
    summary := (List.replicate 8 vacantSummary).set 0 { vacantSummary with station := 3, state := .entered } }

/-- A MAPPED node writes its own report into the block of its car (R116). -/
theorem test_own_block_at_a_node :
    ShowsSeat drivingHeader.summary 0 0 (driving racer) ∧
    parseBlock (passBlock drivingHeader (List.replicate 608 (.data 0)) 0 (driving racer)).1 =
      some { blockOf 1 4 4 with station := 3 } := by decide +kernel

/-! ## Witnesses: seats at the silence limit, frames still awaited, channels at DEFERRED, cars of a computation -/

/-- A racer whose seat A is REQUESTED with its JOIN queued or posted, and whose seat B is SEATED. -/
def asking (waits : Bool) : State :=
  { racer with
    seat := { racer.seat with seats := [.requested [65, 66, 67], .seated 4 [65, 66, 67]] },
    slots := { racer.slots with
      urgent := if waits then [] else [{ waitingMsg .urgent with kind := .join, dest := 0 }],
      outstanding := if waits then [{ gameEntry with kind := .join }] else [] } }

theorem test_witness_SilenceMovesTheNode_seats :
    ∀ b, (asking b).cyc.ring = .mapped ∧ (asking b).cyc.silence = some 0 ∧ (asking b).bulk.recv.length = 4 ∧
      seatAt (asking b) 0 = .requested [65, 66, 67] ∧ (∀ w, seatAt (asking b) 1 ≠ .requested w) ∧
      (b = true → ∃ o ∈ (asking b).slots.outstanding, o.progress = .waiting ∧ o.kind = .join ∧ o.seat = 0) ∧
      (b = false → ∃ m ∈ (asking b).slots.urgent, m.kind = .join ∧ m.seat = 0) := by
  intro b
  refine ⟨rfl, rfl, rfl, rfl, fun w h => SeatRecord.noConfusion h, ?_, ?_⟩ <;> cases b <;> decide

/-- The REQUESTED seat of a lost JOIN is UNSEATED, the other keeps its car, and the RING report LOST carries the
number of messages discarded, 1 of a queue and 0 of an outstanding post (R10, R12, R75, R103). -/
theorem test_lost_join_at_the_silence_limit :
    ∀ b, (enterLost (asking b)).seat.seats = [.unseated, .seated 4 [65, 66, 67]] ∧
      .ring (.lost (if b then 0 else 1)) .lost 1 ∈ (enterLost (asking b)).port.reports := by decide +kernel

/-- After Restart the frame last emitted is still awaited, under an empty map; a JOIN slot that it brings back
is cleared (R15, R24, R71). -/
theorem test_frame_awaited_over_restart :
    let s := restartBlocks (missing .idle)
    s.cyc.ring = .surveying ∧ s.survey.map = RingMap.empty ∧ s.cyc.awaited = some (ownHeader false).cycle ∧
      anchorTakes s = true ∧ (ownHeader false).serial = ownSerial s ∧
      relaySlot 0 (joinSymbols false) s = (none, s) := by decide +kernel

theorem test_witness_frames_still_awaited :
    (let u := surveying false 1 none 1
     let s : State := { u with cyc := { u.cyc with awaited := some 7 } }
     actingAnchor s = true ∧ s.cyc.ring = .surveying ∧ s.cyc.nextBoundary = some 500 ∧
       s.survey.run = some { newRun with emitted := false } ∧ s.cyc.awaited = some 7) ∧
    (let s : State := { missing .idle with cyc := { (missing .idle).cyc with missed := 1 } }
     actingAnchor s = true ∧ s.cyc.awaited = some 7 ∧ s.cyc.missed + 1 < setup s 5 ∧
       s.cyc.nextBoundary = some 500) ∧
    (let s : State := { missing .idle with cyc := { (missing .idle).cyc with ring := .stalled } }
     actingAnchor s = true ∧ s.cyc.ring = .stalled ∧ s.cyc.awaited = some 7) := by decide +kernel

/-- A frame still awaited at a boundary takes its held slot and referral with it (R72, R102). -/
theorem test_missed_return_loses_the_held_slot :
    let s : State := { decidedSlot with cyc := { decidedSlot.cyc with awaited := some 7 } }
    (countMissed s).race.referral = .free ∧ (countMissed s).slots.held = [] ∧ (countMissed s).cyc.missed = 1 ∧
      (countMissed s).port.reports = [.referral .slotLost 3 0 [65, 66, 67] 0 (some (.accepted 6))] := by
  decide +kernel

/-- The anchor with channel 2 ACTIVE fails it as it enters DEFERRED, and channel 1 stays IDLE (R17, R157). -/
theorem test_deferred_fails_the_active_channel :
    let s : State := { anchorIn .idle with bulk := (sending 20 1 false (some (.segment 0 20)) []).bulk }
    s.bulk.send.length = 2 ∧ (chanAt s 1).state ≠ .active ∧ (chanAt s 2).state = .active ∧
      (enterDeferred 499 [] s).bulk.send.map (·.state) = [.idle, .failed .deferred] ∧
      .bulkFailedSend 2 5 .deferred 0 300 ∈ (enterDeferred 499 [] s).port.reports := by decide +kernel

/-- A racer that sees car 0 of station 5, with an entry of a freshness, and car 1 as its own. -/
def seeing (f : Freshness) (pres : Option Presentation) (held : Bool) : State :=
  let seenHeader : Header :=
    { headerIn .running with
      held := held, summary := (showing .racing).set 1 { vacantSummary with station := 3, state := .racing } }
  let seenEntry : ReplicaEntry := { entryIn f with pres := pres }
  { driving racer with
    cyc := { racer.cyc with mirrors := some seenHeader },
    replica := racer.replica.set 0 seenEntry }

/-- Every treatment of a car comes about: own, held, without values, standing, FRESH and STALE (R127, R134,
R135). -/
theorem test_treatments_of_a_car :
    let d := (blockOf 1 1 1).data
    configured (seeing .fresh none false) = true ∧ (seeing .fresh none false).time.computation = none ∧
    (entryAt (seeing .gone none false) 0).data = some d ∧
    (computeCar (seeing .fresh none false) 9 1).1.source = .own ∧
    (computeCar (seeing .fresh (some (standingCar d)) true) 9 0).1.source = .held ∧
    (computeCar (seeing .fresh none true) 9 0).1.source = .none ∧
    (computeCar (seeing .none none false) 9 0).1.source = .none ∧
    (computeCar (seeing .gone none false) 9 0).1.source = .standing ∧
    ((computeCar (seeing .stale none false) 100009 0).1.source = .presented ∧
      (computeCar (seeing .stale none false) 100009 0).1.fresh = .fresh ∧
      (computeCar (seeing .fresh none false) 100010 0).1.fresh = .stale) := by decide +kernel

/-- The end of a computation writes the presentation state and freshness into a live entry, and nothing into one
that has been cleared (R127, R133). -/
theorem test_end_of_a_computation :
    let k := startComputation (seeing .gone none false) 1
    (writeEntries k [entryIn .gone]).map (·.pres) = [some (standingCar (blockOf 1 1 1).data)] ∧
      writeEntries { k with live := List.replicate 8 false } [entryIn .gone] = [entryIn .gone] ∧
      writeEntries k [entryIn .none] = [entryIn .none] := by decide +kernel

/-! ## Witnesses: refusals, a slot at relay count 15, the reports of a stall and of Configure -/

theorem test_witness_seat_refusals :
    (CommandReady racer ∧ role racer ≠ .observer ∧ racer.cyc.ring ≠ .deferred ∧ seatCount racer ≤ 1 ∧
      seatAt racer 0 = .unseated ∧ ∀ c w, seatAt racer 0 ≠ .seated c w) ∧
    (CommandReady (asking false) ∧ seatAt (asking false) 0 ≠ .unseated) ∧
    (let s := station 3 2 1 .listening
     CommandReady s ∧ 0 < seatCount s ∧ seatAt s 0 = .unseated ∧ anchorRole s = false ∧ s.cyc.ring ≠ .mapped) ∧
    (let s := setSeat 0 (.seated 4 [65, 66, 67]) (station 3 2 1 .listening)
     CommandReady s ∧ seatAt s 0 = .seated 4 [65, 66, 67] ∧ leavePending s 0 = false ∧
       leavePending { s with slots := { s.slots with outstanding :=
         [{ gameEntry with kind := .leave, seat := 0 }] } } 0 = true) := by
  refine ⟨⟨by decide +kernel, by decide, by decide, by decide, rfl, fun _ _ h => SeatRecord.noConfusion h⟩, ?_, ?_, ?_⟩ <;>
    decide +kernel

theorem test_witness_bulk_and_read_refusals :
    (CommandReady racer ∧ ringReady racer = true ∧ address racer = 3 ∧ address racer ≤ 14 ∧
      ¬ ((0 : Nat) = 1 ∨ (0 : Nat) = 2) ∧ ¬ ((3 : Nat) = 1 ∨ (3 : Nat) = 2)) ∧
    (let s := station 3 2 1 .unmapped
     CommandReady s ∧ role s ≠ .observer ∧ s.cyc.ring ≠ .deferred ∧ ringReady s = false ∧ 14 ≠ address s) ∧
    (canTake racer = true ∧ anchorRole racer = false ∧ configured racer = true) := by decide +kernel

/-- A slot of station 5 for the anchor with segment 4,095 of channel 1, one byte of a stream of 40. -/
def segmentForAnchor (relay : Nat) : SlotMsg :=
  { gameSlot 5 0 with kind := .bulkSegment, relay := relay, len := 5,
                      payload := padPayload [0x4F, 0xFF, 0, 40, 7] }

/-- An anchor with the receive entry of station 5 OPEN and no room for a report. -/
def crammed : State := roomForTwo { anchorIn .idle with bulk := receiving.bulk }

theorem test_witness_slots_at_relay_15 :
    (∀ m ∈ [{ gameSlot 3 0 with relay := 15 }, { gameSlot 3 0 with relay := 14 }, segmentForAnchor 15,
        segmentForAnchor 14, { gameSlot 3 15 with kind := .clearStations },
        { gameSlot 3 15 with kind := .clearStations, relay := 1 },
        { gameSlot 3 15 with kind := .clearStations, relay := 14 }],
      parseSlot (toSymbols (slotBytes (some m))) = some (some m)) ∧
    (lists crammed.survey.map 0 = true ∧ address crammed = 0 ∧ crammed.replica.length = 8) ∧
    (reportFree crammed < reportSize (.gameIn 3 .urgent 4 (gameSlot 3 0).body false) ∧
      serveSlot (segmentForAnchor 15) crammed = (crammed, none)) := by decide +kernel

/-- A GAME and a segment that the anchor still defers at relay count 15 are answered UNDELIVERABLE; a GAME for
which there is room is ACCEPTED (R69, R71). -/
theorem test_relay_15_is_undeliverable :
    let out (m : SlotMsg) (s : State) : Option Nat :=
      (relaySlot 2 (toSymbols (slotBytes (some m))) s).1.map (·.outcome)
    out { gameSlot 3 0 with relay := 15 } crammed = some 9 ∧ out (segmentForAnchor 15) crammed = some 9 ∧
      out { gameSlot 3 0 with relay := 15 } (anchorIn .idle) = some 1 := by decide +kernel

/-- The anchor copies a node's CLEAR STATIONS on its first return and empties it on its next (R70, R71). -/
theorem test_anchor_copies_clear_stations :
    let s : State := { anchorIn .idle with seat := { (anchorIn .idle).seat with ready := true } }
    let r (n : Nat) := relaySlot 2 (toSymbols (slotBytes
      (some { gameSlot 3 15 with kind := .clearStations, relay := n }))) s
    ((r 0).1.map (·.relay) = some 1 ∧ (r 0).2.seat.ready = false) ∧ (r 1).1 = none ∧ (r 1).2.seat.ready = true := by
  decide +kernel

/-- Entering STALLED queues STALLED with the count, and behind it PHASE in RUNNING, STALL IN PHASE in GATHERING,
and nothing in COUNTDOWN or with FAULT already held (R12, R15, R52, R86). -/
theorem test_reports_of_a_stall :
    let told (s : State) : List Report := (enterStalled (missReturn s)).port.reports
    let stalled : Report := .ring (.stalled 3) .stalled 0
    told (missing .gathering) = [stalled, .ring (.stallInPhase .gathering) .stalled 0] ∧
    told (missing .countdown) = [stalled] ∧
    told (missing .running) = [stalled, .phase .running true { fault := true, command := false } 0 .stall] ∧
    told (holding true false (missing .running)) = [stalled] := by decide +kernel

/-- A Configure for SOLO with the receiver DOWN reports SURVEYING and LINK UP; with it UP, and for ANCHOR,
SURVEYING alone (R12, R13, R19). -/
theorem test_reports_of_configure :
    let told (r : Nat) (s : State) : List Report := (configureAct 0 r 1 7 1 s).1.port.reports
    let surveys : Report := .ring .surveying .surveying 0
    told 4 State.reset = [surveys, .ring .linkUp .surveying 0] ∧ told 4 cabinet = [surveys] ∧
      told 1 State.reset = [surveys] := by decide +kernel

/-- An emitted header carries G from COUNTDOWN on, and 0 in GATHERING (R46, R94). -/
theorem test_emitted_go_time :
    emittedGo (timed (.armed 43000000) .zero 0 (anchorIn .countdown)) = 43000000 ∧
      emittedGo (timed (.fired 43000000) .counting 9 (anchorIn .results)) = 43000000 ∧
      emittedGo (anchorIn .gathering) = 0 := by decide +kernel

/-- A JOIN slot that finds the referral record not FREE at relay count 15 is answered UNDELIVERABLE (R71). -/
theorem test_join_at_relay_15 :
    let s := joining 2 (anchorIn .gathering)
    let u := referred (.pending { someJoin with station := 5 } (.slot 1 5 9) 5) s
    let m : SlotMsg := { gameSlot 3 0 with kind := .join, relay := 15, len := 9,
                                           payload := padPayload (joinPayload someJoin) }
    parseSlot (toSymbols (slotBytes (some m))) = some (some m) ∧ joinOf m.body = someJoin ∧
      (someJoin.title, someJoin.revision) = signature u ∧
      (relaySlot 0 (toSymbols (slotBytes (some m))) u).1.map (·.outcome) = some 9 := by decide +kernel

/-- A changed roll result and a newly raised address give ROLL and ATTENTION; a clear newcomer flag clears the
latch, a set one keeps it (R26, R108, R110). -/
theorem test_reports_of_a_return :
    let s := anchorIn .idle
    let u : State := { s with race := { s.race with roll := 0x0006, attention := 0x0010 } }
    (takeAttention 0x0011 (takeRoll 0x0005 u)).port.reports =
        [.roll 0x0005 0x0001 0x0002, .attention 0x0001 0x0011] ∧
      (takeAttention 0 (takeRoll 0x0006 u)).port.reports = [] ∧
      (let v : State := { s with survey := { s.survey with latch := true } }
       (noteNewcomer (ownHeader false) v).survey.latch = false ∧
         (noteNewcomer (ownHeader true) v).survey.latch = true ∧
         newcomerAppears (ownHeader true) (noteNewcomer (ownHeader true) v) = false ∧
         newcomerAppears (ownHeader true) (noteNewcomer (ownHeader false) v) = true) := by decide +kernel

/-- The SEATS part of Status takes 42 bytes, which its fullest referral record fills (R166, R168). -/
theorem test_seats_part_is_filled :
    let full (r : Referral) : Report := .reply (.command .status) (.done (.status
      (.seats [.unseated, .unseated] false false 0 [false, false] (some r) 0 0)))
    let decided := full (.decided someJoin (.slot 1 3 9) (.accepted 2) 5)
    reportSize decided = 42 ∧ (reportContents decided).length = 40 ∧
      (reportFrame (full .free)).length = 42 := by decide +kernel

/-- An empty frame at the head goes, but stays while a reply waits (R163, R164). -/
theorem test_empty_frame_waits :
    let p := { racer.port with frames := [{ bytes := [0], damaged := false, code := none }] }
    let u : State := { racer with port := { p with waiting := some (.notice []) } }
    exec .emptyFrame { racer with port := p } = .next { racer with port := { p with frames := [] } } ∧
      exec .emptyFrame u = .next u := ⟨rfl, rfl⟩

end Sys2Proof.Tests
end

section
/-! The survey's start by command, and the ring map that a survey's success gives (chapter 02, R24 to R32). -/

namespace Sys2Proof.Machine

open Sys2Proof Sys2Proof.Safety

/-! ## The tests of the Survey command -/

/-- An acting anchor is in a ring state that a configured station has (R77, R169). -/
theorem configured_of_actingAnchor {s : State} (h : actingAnchor s = true) : configured s = true := by
  have hr : emitting s.cyc.ring = true := by simp_all [actingAnchor]
  unfold configured
  cases hc : s.cyc.ring <;> simp_all [emitting]

/-- An anchor command of the right length passes its first tests at an acting anchor (R79). -/
theorem firstRefusal_anchorTests {s : State} (h : actingAnchor s = true) :
    firstRefusal (anchorTests true s) = none := by
  simp [anchorTests, baseTests, configured_of_actingAnchor h, h]

/-- The phases in which Survey is taken, one by one (R25). -/
theorem surveyPhase_iff (s : State) : surveyPhase s = true ↔
    s.race.phase = .idle ∨ s.race.phase = .gathering ∨ s.race.phase = .results ∨
      ((s.race.phase = .running ∨ s.race.phase = .closing) ∧ anyCause s.race.causes = true) := by
  simp [surveyPhase, phaseIn, or_assoc]

/-- Behind the phase only a running survey refuses the command, with BUSY (R25). -/
theorem firstRefusal_survey {s : State} (ha : actingAnchor s = true) (hp : surveyPhase s = true) :
    firstRefusal (anchorTests true s ++ [(surveyPhase s, .phase), (s.survey.run.isNone, .busy)]) =
      if s.survey.run.isNone then none else some .busy := by
  simp [firstRefusal_append, firstRefusal_anchorTests ha, hp]

/-! ## The start of a survey -/

/-- In SURVEYING BYP is asserted at a SOLO station alone (R18). -/
theorem bypFor_surveying (s : State) : bypFor .surveying (role s) = isSolo s := rfl

/-- A survey starts in SURVEYING with attempt 1, pass 1 and no missed return, and its RING report names that
ring state (R12, R14, R24). -/
theorem startSurvey_eq (s : State) : startSurvey s =
    queueEvent (.ring .surveying .surveying (mirrorEpoch s))
      { s with
        cyc := { s.cyc with ring := .surveying, missed := 0 },
        link := { s.link with tx := .emit, byp := isSolo s },
        survey := { s.survey with run := some newRun } } := by
  rw [← bypFor_surveying]
  rfl

/-- Settles O37: the tests before BUSY pass, and the act is the start of a survey with the latch cleared. -/
theorem surveyCommandStartsASurvey : Obligations.SurveyCommandStartsASurvey := by
  rintro s ⟨htake, hact⟩ hphase
  have htests := firstRefusal_survey (s := dropFrame s) hact ((surveyPhase_iff (dropFrame s)).2 hphase)
  constructor
  · intro hrun
    have hpass := htests.trans (if_pos (by simp [hrun]))
    change execSurvey true s = _
    rw [execSurvey, takeCommand_ready _ _ _ htake, tested_pass _ _ hpass, startSurvey_eq]
    rfl
  · intro hrun
    have hbusy := htests.trans (if_neg (by simp [hrun]))
    exact congrArg Host.Outcome.next (takeCommand_refused .survey _ s htake hbusy)

/-! ## The offsets and addresses of the map (R32) -/

/-- The map lists the entries' addresses in their order, and 15 behind them. -/
theorem surveyMap_addr (entries : List CollectEntry) (r : Nat) {p : Nat} (hp : p < 12) :
    (surveyMap entries r).addr.getD p 15 = (entries[p]?.map CollectEntry.address).getD 15 := by
  rcases lt_or_ge p entries.length with h | h
  · simp [surveyMap, List.getD_eq_getElem?_getD, hp, h]
  · simp [surveyMap, List.getD_eq_getElem?_getD, hp, h, -List.reduceReplicate]

/-- The map holds the computed offset at the positions of its entries, and 0 behind them. -/
theorem offsetAt_surveyMap (entries : List CollectEntry) (r : Nat) {p : Nat} (hp : p < 12) :
    offsetAt (surveyMap entries r) p = if p < entries.length then surveyOffset entries.length r p else 0 := by
  simp [offsetAt, surveyMap, List.getD_eq_getElem?_getD, hp]

/-- The anchor's own position has no offset. -/
@[simp] theorem surveyOffset_zero (n r : Nat) : surveyOffset n r 0 = 0 := by
  rcases Nat.eq_zero_or_pos n with rfl | hn
  · simp [surveyOffset]
  · simpa [surveyOffset] using Nat.div_eq_of_lt (show 10 * n < 20 * n by omega)

/-- The offset is the integer nearest to `p * (32 * n + C) / (10 * n)`, the upper one at a half: `20 * n` times it
lies within `10 * n` of twice the numerator, the lower end excluded. -/
theorem surveyOffset_nearest {n : Nat} (r p : Nat) (hn : 1 ≤ n) :
    2 * (p * (32 * n + (r - 32 * (n - 1)))) < 20 * n * surveyOffset n r p + 10 * n ∧
      20 * n * surveyOffset n r p ≤ 2 * (p * (32 * n + (r - 32 * (n - 1)))) + 10 * n := by
  unfold surveyOffset
  generalize 2 * (p * (32 * n + (r - 32 * (n - 1)))) = a
  have hfloor : 20 * n * ((a + 10 * n) / (20 * n)) ≤ a + 10 * n := Nat.mul_div_le _ _
  have hceil : a + 10 * n < 20 * n * ((a + 10 * n) / (20 * n)) + 20 * n := by
    simpa [mul_add] using Nat.lt_mul_div_succ (a + 10 * n) (show 0 < 20 * n by omega)
  omega

/-- Up to 12 stations and a round trip of 2,000 µs no offset is above 186: the numerator's factor `32 * n + C` is at
most 2,032, and `p / n` at most 11 / 12. -/
theorem surveyOffset_le {n r p : Nat} (hn : n ≤ 12) (hr : r ≤ 2000) (hp : p < n) : surveyOffset n r p ≤ 186 := by
  have hfactor : 32 * n + (r - 32 * (n - 1)) ≤ 2032 := by omega
  have hnum : p * (32 * n + (r - 32 * (n - 1))) ≤ p * 2032 := Nat.mul_le_mul_left p hfactor
  refine Nat.lt_succ_iff.1 ((Nat.div_lt_iff_lt_mul (by omega)).2 ?_)
  omega

/-- C as R32 gives it: R - 32 (N - 1), taken as 0 below 0. -/
theorem surplus_cast {n : Nat} (r : Nat) (hn : 1 ≤ n) :
    ((r - 32 * (n - 1) : Nat) : Int) = max 0 ((r : Int) - 32 * ((n : Int) - 1)) := by
  omega

/-- Settles O23, position by position: rounding to nearest, the bound, and 0 at the anchor and behind the last
entry. -/
theorem surveyOffsets : Obligations.SurveyOffsets := by
  intro entries r hlo hhi hr
  refine ⟨fun p hp => ?addresses, fun p hp => ?bound, ?anchor, fun p hp hbehind => ?behind, fun p hp _ => ?nearest⟩
  case addresses =>
    rw [surveyMap_addr entries r hp]
    cases entries[p]? <;> rfl
  case bound =>
    rw [offsetAt_surveyMap entries r hp]
    split
    · next h => exact surveyOffset_le hhi hr h
    · exact Nat.zero_le _
  case anchor => simp [offsetAt_surveyMap]
  case behind => rw [offsetAt_surveyMap entries r hp, if_neg (by omega)]
  case nearest =>
    obtain ⟨hlower, hupper⟩ := surveyOffset_nearest r p hlo
    simp only [offsetAt_surveyMap entries r (hp.trans_le hhi), if_pos hp, ← surplus_cast r hlo]
    zify at hlower hupper
    exact ⟨by linarith only [hlower], hupper⟩

end Sys2Proof.Machine
end

section
/-! Why `RaceKept` alone is not kept by every step: the role of a station stands in the settings table, and `RaceKept`
does not say that the table has an entry for it (R169, R172). -/

namespace Sys2Proof.Machine

open Sys2Proof Sys2Proof.Safety

/-- A part as after reset, but for a settings table that holds no entry; a Configure as a RACER waits. -/
def emptySettings : State :=
  { State.reset with
    settings := { SettingsUnit.reset with entries := [] },
    pending := [.configure true 0 2 1 0 0] }

/-- The state meets the premise: it is UNCONFIGURED with a fresh race and no role. -/
theorem raceKept_emptySettings : RaceKept emptySettings := by decide

/-- The Configure is taken and enters LISTENING, but a table with no entry 13 stores no role (R8, R169). -/
theorem step_emptySettings : ∃ t, step emptySettings = .next t ∧ role t = .none ∧ t.cyc.ring = .listening :=
  ⟨_, rfl, by decide, by decide⟩

/-- Refutes O57: Configure takes a station whose settings table has no entry for the role out of UNCONFIGURED, so that
it stands in LISTENING, a ring state of nodes, without a role. -/
theorem not_stepKeepsTheRace : ¬ Obligations.StepKeepsTheRace := by
  intro h
  obtain ⟨t, hstep, hrole, hring⟩ := step_emptySettings
  obtain ⟨⟨hsuits, -⟩, -⟩ := h emptySettings t raceKept_emptySettings hstep
  simp [RingSuits, hrole, hring, ringSuits] at hsuits

end Sys2Proof.Machine
end

section
/-! The station's own commands that only tell or signal: Status by the part it names, and Local Trigger by the race
phase (R53, R168). -/

namespace Sys2Proof.Machine

open Sys2Proof Sys2Proof.Safety

/-! ## Status (R168) -/

/-- Status that names a part is answered with its state (R168). -/
theorem execStatus_of_some {part : StatusPart} {d : StatusData} {s : State} (htake : canTake s = true)
    (h : statusOf (dropFrame s) part = some d) :
    exec (.status true part) s = .next (giveReply (.command .status) (.done (.status d)) (dropFrame s)) := by
  change execStatus true part s = _
  simp [execStatus, takeCommand_ready _ _ _ htake, tested, statusAct, h]

/-- Status that names no part is MALFORMED (R168). -/
theorem execStatus_of_none {part : StatusPart} {s : State} (htake : canTake s = true)
    (h : statusOf (dropFrame s) part = none) : Refused .status (.status true part) .malformed s := by
  change execStatus true part s = _
  simp [execStatus, takeCommand_ready _ _ _ htake, tested, statusAct, h]

/-- Settles O35: each selector reduces to the state that `statusOf` names for it, or to none. -/
theorem statusReturnsTheState : Obligations.StatusReturnsTheState := by
  intro s part htake
  refine ⟨?unknown, ?misfit, ?link, ?survey, ?time, ?slots, ?race, fun c hc hpart => ?car, ?seats, ?ownReports,
    fun c hc hpart => ?replica, ?bulk, ?port, ?settings⟩
  case unknown =>
    rintro ⟨n, rfl | ⟨hn, rfl | rfl⟩⟩ <;> refine execStatus_of_none htake ?_
    · rfl
    · exact if_neg hn.not_gt
    · exact if_neg hn.not_gt
  case misfit =>
    change execStatus false part s = _
    rw [execStatus, takeCommand_ready _ _ _ htake, tested_refused _ _ rfl]
  case car => exact hpart ▸ execStatus_of_some htake (if_pos hc)
  case replica => exact hpart ▸ execStatus_of_some htake (if_pos hc)
  all_goals
    rintro rfl
    exact execStatus_of_some htake rfl

/-! ## Local Trigger (R53) -/

/-- Behind its first tests Local Trigger asks for the race phase IDLE (R53). -/
theorem firstRefusal_localTrigger (s : State) :
    firstRefusal (baseTests true s ++ [(racePhase s == .idle, .phase)]) =
      if configured s = true then if racePhase s = .idle then none else some .phase else some .notConfigured := by
  simp [baseTests]

/-- Settles O36: the command is refused by its first test that fails, and starts the pulse when none does. -/
theorem localTriggerStartsThePulse : Obligations.LocalTriggerStartsThePulse := by
  intro s htake
  have htests := firstRefusal_localTrigger (dropFrame s)
  refine ⟨fun hconf hidle => ?starts, fun hconf hphase => ?phase, fun hconf => ?notConfigured,
    fun hnode hmirrors => ?node, fun _ hanchor => if_pos hanchor⟩
  case starts =>
    change execLocalTrigger true s = _
    rw [execLocalTrigger, takeCommand_ready _ _ _ htake,
      tested_pass _ _ (htests.trans ((if_pos hconf).trans (if_pos hidle)))]
    rfl
  case phase =>
    exact congrArg _ (takeCommand_refused _ _ s htake (htests.trans ((if_pos hconf).trans (if_neg hphase))))
  case notConfigured =>
    exact congrArg _ (takeCommand_refused _ _ s htake
      (htests.trans (if_neg (by simpa [configured] using hconf))))
  case node =>
    have hanchor : anchorRole s ≠ true := by
      cases hrole : role s <;> simp_all [nodeRole, anchorRole]
    simp [racePhase, hanchor, hmirrors, mirrorPhase]

end Sys2Proof.Machine
end

section
/-! The race commands of an acting anchor: Hold and Resume, Abort and Clear Race, Open and Close Gathering and Start
Race (R46, R80 to R85). -/

namespace Sys2Proof.Machine

open Sys2Proof Sys2Proof.Safety

/-! ## Race commands that are taken (R79) -/

/-- A command that passes its tests is acted on behind its frame's leaving, and gives its reply. -/
theorem takeCommand_passed (c : Cmd) {tests : State → List (Bool × RefusalReason)}
    (act : State → State → State × ReplyBody) (s : State) (htake : canTake s = true)
    (hpass : firstRefusal (tests (dropFrame s)) = none) :
    takeCommand c (fun s => tested (tests s) (act s) s) s =
      giveReply (.command c) (act (dropFrame s) (dropFrame s)).2 (act (dropFrame s) (dropFrame s)).1 := by
  rw [takeCommand_ready _ _ _ htake, tested_pass _ _ hpass]

/-- A command's outcome is given by the state behind which its reply is given. -/
theorem next_giveReply_congr {re : ReplyTo} {body : ReplyBody} {u v : State} (h : u = v) :
    (.next (giveReply re body u) : Host.Outcome State Fault Refusal) = .next (giveReply re body v) := by rw [h]

/-- At an acting anchor a race command of the right length is judged by its tests behind R79's first three. -/
theorem firstRefusal_anchorTests_append {s : State} (h : actingAnchor s = true) (l : List (Bool × RefusalReason)) :
    firstRefusal (anchorTests true s ++ l) = firstRefusal l := by
  simp [firstRefusal_append, firstRefusal_anchorTests h]

/-- A race command is taken in each of its phases (R79). -/
theorem firstRefusal_phaseIn {s : State} (ha : actingAnchor s = true) {l : List Phase} (hp : s.race.phase ∈ l) :
    firstRefusal (anchorTests true s ++ [(phaseIn s l, .phase)]) = none := by
  simp [firstRefusal_anchorTests_append ha, phaseIn, hp]

/-! ## Hold and Resume (R84, R85) -/

/-- Causes put as they stand change nothing, and no PHASE report is queued (R78). -/
theorem setCauses_same (ev : PhaseEvent) (s : State) : setCauses s.race.causes ev s = s := if_pos rfl

/-- Race time when the held causes change: it freezes as the first appears and runs again as the last goes
(R43, R84). -/
def timeForCauses (before after : HeldCauses) (t : Timebase) : Timebase :=
  if anyCause after && !anyCause before then freezeRace .held t
  else if !anyCause after && anyCause before then resumeRace t
  else t

/-- Held causes that change: race time follows them at its value, and one PHASE report tells (R78, R84). -/
theorem setCauses_changed {causes : HeldCauses} (ev : PhaseEvent) {s : State} (h : causes ≠ s.race.causes) :
    setCauses causes ev s =
      queueEvent (.phase s.race.phase (anyCause causes) causes s.time.race ev)
        { s with race := { s.race with causes := causes },
                 time := timeForCauses s.race.causes causes s.time } := by
  have hrace : (timeForCauses s.race.causes causes s.time).race = s.time.race := by
    unfold timeForCauses
    split_ifs <;> rfl
  rw [← hrace]
  exact if_neg h

/-- Hold and Resume are taken in RUNNING and CLOSING (R85). -/
theorem phaseIn_racing {s : State} (h : s.race.phase = .running ∨ s.race.phase = .closing) :
    s.race.phase ∈ [Phase.running, .closing] := by simpa using h

/-- Setting COMMAND to what it is not changes the held causes. -/
theorem commandSet_ne {causes : HeldCauses} {b : Bool} (h : causes.command ≠ b) :
    { causes with command := b } ≠ causes := fun heq => h (congrArg HeldCauses.command heq).symm

/-- A Hold that is taken sets the cause COMMAND (R85). -/
theorem execHold_taken {s : State} (hready : AnchorReady s)
    (hphase : s.race.phase = .running ∨ s.race.phase = .closing) :
    exec (.hold true) s =
      .next (giveReply (.command .hold) (.done .none)
        (setCauses { s.race.causes with command := true } .hold (dropFrame s))) := by
  change execHold true s = _
  rw [execHold, takeCommand_passed _ _ _ hready.1
    (firstRefusal_phaseIn (s := dropFrame s) hready.2 (phaseIn_racing hphase))]
  rfl

/-- A Resume that is taken removes the cause COMMAND, and its reply tells whether FAULT remains (R85). -/
theorem execResume_taken {s : State} (hready : AnchorReady s)
    (hphase : s.race.phase = .running ∨ s.race.phase = .closing) (hcommand : s.race.causes.command = true) :
    exec (.resume true) s =
      .next (giveReply (.command .resume) (.done (if s.race.causes.fault then .stillHeld else .none))
        (setCauses { s.race.causes with command := false } .resume (dropFrame s))) := by
  have hpass : firstRefusal (anchorTests true (dropFrame s) ++
      [(phaseIn (dropFrame s) [.running, .closing] && (dropFrame s).race.causes.command, .phase)]) = none := by
    rw [firstRefusal_anchorTests_append (s := dropFrame s) hready.2]
    simp [phaseIn, hphase, hcommand]
  change execResume true s = _
  rw [execResume, takeCommand_passed _ (fun _ => resumeAct) _ hready.1 hpass]
  rfl

/-- Settles O40: each command changes the held causes to a set written out, and race time follows them. -/
theorem holdAndResume : Obligations.HoldAndResume := by
  refine ⟨fun s hready hphase => ⟨fun hcommand => ?again, fun hcommand => ?hold⟩,
    fun s hready hphase hcommand => ⟨fun hfault => ?still, fun hfault => ?free⟩⟩
  case again =>
    have hsame : { s.race.causes with command := true } = (dropFrame s).race.causes := by
      rw [← hcommand]; rfl
    rw [execHold_taken hready hphase, hsame, setCauses_same]
  case hold =>
    have hchanged := setCauses_changed (s := dropFrame s) .hold (commandSet_ne (b := true) (by simp [hcommand]))
    rw [execHold_taken hready hphase]
    refine next_giveReply_congr (hchanged.trans ?_)
    cases hfault : s.race.causes.fault <;>
      simp [timeForCauses, anyCause, freezeRace, hcommand, hfault]
  case still =>
    have hchanged := setCauses_changed (s := dropFrame s) .resume (commandSet_ne (b := false) (by simp [hcommand]))
    rw [execResume_taken hready hphase hcommand, if_pos hfault]
    refine next_giveReply_congr (hchanged.trans ?_)
    simp [timeForCauses, anyCause, hfault]
  case free =>
    have hchanged := setCauses_changed (s := dropFrame s) .resume (commandSet_ne (b := false) (by simp [hcommand]))
    rw [execResume_taken hready hphase hcommand, if_neg (by simp [hfault])]
    refine next_giveReply_congr (hchanged.trans ?_)
    simp [timeForCauses, anyCause, resumeRace, countingAt, topMicros, hcommand, hfault]

/-! ## Abort Race and Clear Race (R82, R83) -/

/-- A PLACING report queued is that of R149 for the race before the event and after it. -/
theorem queuePlacing_eq (cause : PlacingCause) (before : RaceControl) (s : State) :
    queuePlacing cause before s = queueEvent (placingReport cause before s.race) s := rfl

/-- The race emptied, with the reports that tell: PHASE, and behind it PLACING when the finish list was not empty
(R82, R83, R149). -/
theorem emptyRace_eq (ev : PhaseEvent) (s : State) :
    emptyRace ev s =
      let told := queueEvent (.phase .idle false { fault := false, command := false } 0 ev)
        { s with race := emptiedRace s.race, time := emptiedTime s.time }
      if s.race.finish = [] then told else queueEvent (placingReport .cleared s.race (emptiedRace s.race)) told := by
  simp only [emptyRace, queuePlacing_eq, queuePhase_leaves, List.isEmpty_iff]
  rfl

/-- What the emptying of the race leaves, by the finish list it began with. -/
theorem emptyRace_spec (ev : PhaseEvent) (s : State) :
    ∃ u, emptyRace ev (dropFrame s) = u ∧
      u = { s with race := emptiedRace s.race, time := emptiedTime s.time, port := u.port } ∧
      (s.race.finish = [] →
        u = queueEvent (.phase .idle false { fault := false, command := false } 0 ev)
          { dropFrame s with race := emptiedRace s.race, time := emptiedTime s.time }) ∧
      (s.race.finish ≠ [] →
        u = queueEvent (placingReport .cleared s.race (emptiedRace s.race))
          (queueEvent (.phase .idle false { fault := false, command := false } 0 ev)
            { dropFrame s with race := emptiedRace s.race, time := emptiedTime s.time })) := by
  refine ⟨_, rfl, ?_, fun h => ?_, fun h => ?_⟩
  · rw [emptyRace_eq]
    dsimp only
    split
    · rw [queueEvent_eq_port]; rfl
    · rw [queueEvent_eq_port, queueEvent_eq_port]; rfl
  · exact (emptyRace_eq ev _).trans (if_pos h)
  · exact (emptyRace_eq ev _).trans (if_neg h)

/-- Settles O39: both commands are taken in their phases, and both empty the race. -/
theorem abortAndClearEmptyTheRace : Obligations.AbortAndClearEmptyTheRace := by
  rintro s ⟨htake, hact⟩
  refine ⟨fun hphase => ?abort, fun hphase => ?clear⟩
  case abort =>
    have hpass := firstRefusal_phaseIn (s := dropFrame s) hact
      (show s.race.phase ∈ [Phase.countdown, .running, .closing] by simpa using hphase)
    obtain ⟨u, hu, hrest⟩ := emptyRace_spec .abortRace s
    refine ⟨u, ?_, hrest⟩
    change execAbortRace true s = _
    rw [execAbortRace, takeCommand_passed _ _ _ htake hpass, ← hu]
    rfl
  case clear =>
    have hpass := firstRefusal_phaseIn (s := dropFrame s) hact
      (show s.race.phase ∈ [Phase.results] by simpa using hphase)
    obtain ⟨u, hu, hrest⟩ := emptyRace_spec .clearRace s
    refine ⟨u, ?_, hrest⟩
    change execClearRace true s = _
    rw [execClearRace, takeCommand_passed _ _ _ htake hpass, ← hu]
    rfl


/-! ## Open Gathering, Close Gathering and Start Race (R46, R80, R81) -/

/-- A JOIN outcome changes the seat records and the port. -/
theorem joinOutcome_eq (k : Nat) (o : MsgOutcome) (s : State) :
    joinOutcome k o s =
      { s with seat := { s.seat with seats := (joinOutcome k o s).seat.seats }, port := (joinOutcome k o s).port } := by
  conv_lhs => rw [joinOutcome, queueSeats, queueEvent_eq_port]
  simp [joinOutcome, queueSeats, setSeat, State.withSeat]

/-- A declined JOIN makes its REQUESTED seat UNSEATED (R103). -/
theorem seatAt_joinOutcome_declined {k : Nat} (r : Decline) {s : State} {tag : List Byte}
    (h : seatAt s k = .requested tag) : seatAt (joinOutcome k (.declined r) s) k = .unseated := by
  have hset : (joinOutcome k (.declined r) s).seat.seats = s.seat.seats.set k .unseated := by
    simp [joinOutcome, queueSeats, setSeat, h, seatAfterJoin, namedCar]
  by_cases hk : k < s.seat.seats.length <;> simp [seatAt, hset, hk]

/-- A referral answered DECLINED: a held slot's waits DECIDED with the time that was left, the anchor's own is
delivered at once, and a record that is not PENDING stays (R101, R102). -/
def ReferralDeclined (r : Decline) (s u : State) : Prop :=
  (∀ j place source tag left, s.race.referral = .pending j (.slot place source tag) left →
    u.race.referral = .decided j (.slot place source tag) (.declined r) left ∧ u.seat = s.seat) ∧
  (∀ j left, s.race.referral = .pending j .own left →
    u.race.referral = .free ∧ ∀ w, seatAt s j.seat = .requested w → seatAt u j.seat = .unseated) ∧
  ((∀ j carrier left, s.race.referral ≠ .pending j carrier left) →
    u.race.referral = s.race.referral ∧ u.seat = s.seat)

/-- Of the state before a DECLINED answer the referral record and the seat unit alone count. -/
theorem ReferralDeclined.of_same {r : Decline} {s v u : State} (h : ReferralDeclined r v u)
    (href : v.race.referral = s.race.referral) (hseat : v.seat = s.seat) : ReferralDeclined r s u := by
  simpa [ReferralDeclined, seatAt, href, hseat] using h

/-- A referral record that is not PENDING is left as it stands (R101). -/
theorem decideReferral_of_not_pending (a : JoinAnswer) {s : State}
    (h : ∀ j carrier left, s.race.referral ≠ .pending j carrier left) : decideReferral a s = s := by
  unfold decideReferral
  split
  · rfl
  · rfl
  · next hpending => exact absurd hpending (h _ _ _)

/-- A PENDING referral of a held slot becomes DECIDED, and its answer waits for the slot (R101). -/
theorem decideReferral_slot (a : JoinAnswer) {s : State} {j : JoinRequest} {place source tag left : Nat}
    (h : s.race.referral = .pending j (.slot place source tag) left) :
    decideReferral a s =
      { s with race := { s.race with referral := .decided j (.slot place source tag) a left } } := by
  rw [decideReferral, h]; rfl

/-- A PENDING referral of the anchor's own join is delivered at once, and its record becomes FREE (R101). -/
theorem decideReferral_own (a : JoinAnswer) {s : State} {j : JoinRequest} {left : Nat}
    (h : s.race.referral = .pending j .own left) :
    decideReferral a s =
      queueEvent (.referral .closed j.station j.seat j.tag 0 (some a))
        ((joinOutcome j.seat (joinAnswerOutcome a) s).withRace { s.race with referral := .free }) := by
  simp only [decideReferral, h, closeReferral, queueReferral, joinOutcome_leaves]

/-- The decision of a referral changes its record, the seat records and the port alone. -/
theorem decideReferral_eq (a : JoinAnswer) (s : State) :
    decideReferral a s =
      { s with race := { s.race with referral := (decideReferral a s).race.referral },
               seat := { s.seat with seats := (decideReferral a s).seat.seats },
               port := (decideReferral a s).port } := by
  by_cases h : ∀ j carrier left, s.race.referral ≠ .pending j carrier left
  · rw [decideReferral_of_not_pending a h]
  push Not at h
  obtain ⟨j, carrier, left, h⟩ := h
  cases carrier with
  | own =>
    rw [decideReferral_own a h]
    conv_lhs => rw [queueEvent_eq_port, joinOutcome_eq]
    simp only [State.withRace, queueEvent_leaves]
    congr 1
    exact queueEvent_port _ _ _ rfl
  | slot place source tag => rw [decideReferral_slot a h]

/-- A decision behind the PHASE report of an event. -/
theorem decideReferral_queuePhase_eq (a : JoinAnswer) (ev : PhaseEvent) (s : State) :
    decideReferral a (queuePhase ev s) =
      { s with race := { s.race with referral := (decideReferral a (queuePhase ev s)).race.referral },
               seat := { s.seat with seats := (decideReferral a (queuePhase ev s)).seat.seats },
               port := (decideReferral a (queuePhase ev s)).port } :=
  (decideReferral_eq a (queuePhase ev s)).trans (by simp only [queuePhase_leaves])

/-- Everything that a DECLINED answer does to the referral record and the seats. -/
theorem decideReferral_declined (r : Decline) (s : State) :
    ReferralDeclined r s (decideReferral (.declined r) s) := by
  refine ⟨fun j place source tag left h => ?_, fun j left h => ?_, fun h => ?_⟩
  · rw [decideReferral_slot _ h]; exact ⟨rfl, rfl⟩
  · rw [decideReferral_own _ h]
    refine ⟨by simp, fun w hw => ?_⟩
    simpa [seatAt, joinAnswerOutcome] using seatAt_joinOutcome_declined r hw
  · rw [decideReferral_of_not_pending _ h]; exact ⟨rfl, rfl⟩

/-- At least one car is ENTERED, as Start Race asks (R46). -/
theorem someEntered_iff (s : State) : someEntered s = true ↔ ∃ k ∈ s.race.cars, k.state = .entered := by
  simp [someEntered]

/-- Settles O38: each command changes phase and time as written and queues its PHASE report, and Close Gathering and
Start Race then answer the referral. -/
theorem gatheringAndStart : Obligations.GatheringAndStart := by
  refine ⟨fun s hready => ⟨fun hphase => ?opened, fun hphase => ?closed⟩,
    fun s lead hready hphase hentered => ?started⟩
  case opened =>
    have hpass := firstRefusal_phaseIn (s := dropFrame s) hready.2
      (show s.race.phase ∈ [Phase.idle] by simpa using hphase)
    change execOpenGathering true s = _
    rw [execOpenGathering, takeCommand_passed _ _ _ hready.1 hpass]
    rfl
  case closed =>
    have hpass := firstRefusal_phaseIn (s := dropFrame s) hready.2
      (show s.race.phase ∈ [Phase.gathering] by simpa using hphase)
    refine ⟨decideReferral (.declined .notGathering) (queuePhase .closeGathering
      (((dropFrame s).withRace { vacateEntered s.race with phase := .idle }).withTime (zeroRace s.time))),
      ?exec, ?frame, ?referral⟩
    case exec =>
      change execCloseGathering true s = _
      rw [execCloseGathering, takeCommand_passed _ _ _ hready.1 hpass]
      rfl
    case frame => exact decideReferral_queuePhase_eq _ _ _
    case referral => exact (decideReferral_declined .notGathering _).of_same (by simp [vacateEntered]) (by simp)
  case started =>
    have hpass : firstRefusal (anchorTests true (dropFrame s) ++
        [(phaseIn (dropFrame s) [.gathering], .phase), (someEntered (dropFrame s), .phase)]) = none := by
      rw [firstRefusal_anchorTests_append (s := dropFrame s) hready.2]
      simp [phaseIn, hphase, (someEntered_iff (dropFrame s)).2 hentered]
    refine ⟨decideReferral (.declined .notGathering) (queuePhase .startRace
      (((dropFrame s).withRace { s.race with phase := .countdown }).withTime
        { zeroRace s.time with go := .armed (goTimeFor s.time.link lead) })), ?exec, ?frame, ?referral⟩
    case exec =>
      change execStartRace true lead s = _
      rw [execStartRace, takeCommand_passed _ _ _ hready.1 hpass]
      rfl
    case frame => exact decideReferral_queuePhase_eq _ _ _
    case referral => exact (decideReferral_declined .notGathering _).of_same (by simp) (by simp)

end Sys2Proof.Machine
end

section
/-! The timebase as time passes: each count goes on by itself, and the ends of the waits, the top of race time and the
end of the GO pulse (R38, R40, R42, R45, R50). -/

namespace Sys2Proof.Machine

open Sys2Proof Sys2Proof.Safety

/-! ## The counts side by side -/

/-- Link time that passes changes the link count alone. -/
theorem elapseLink_frame (d : Nat) (t : Timebase) :
    ∃ l q w, elapseLink d t = { t with link := l, linkStatus := q, linkWait := w } := by
  unfold elapseLink
  split
  · exact ⟨_, _, _, rfl⟩
  · split
    · exact ⟨_, _, _, rfl⟩
    · exact ⟨_, _, _, rfl⟩
  · exact ⟨_, _, _, rfl⟩

/-- Race time that passes changes the race count alone. -/
theorem elapseRace_frame (d : Nat) (t : Timebase) :
    ∃ r q w, elapseRace d t = { t with race := r, raceStatus := q, raceWait := w } := by
  unfold elapseRace
  split
  · exact ⟨_, _, _, rfl⟩
  · split
    · exact ⟨_, _, _, rfl⟩
    · exact ⟨_, _, _, rfl⟩
  · exact ⟨_, _, _, rfl⟩
  · exact ⟨_, _, _, rfl⟩

/-- Race time passes as the race count tells, whatever the link count is. -/
theorem elapseRace_withLink (d : Nat) (t : Timebase) (l : Micros) (q : LinkStatus) (w : Nat) :
    elapseRace d { t with link := l, linkStatus := q, linkWait := w } =
      { elapseRace d t with link := l, linkStatus := q, linkWait := w } := by
  unfold elapseRace
  dsimp only
  split
  · rfl
  · split <;> rfl
  · rfl
  · rfl

/-- The timebase after some µs: each count as its own clock has it. -/
theorem elapseTime_eq (d : Nat) (t : Timebase) :
    elapseTime d t =
      { t with
        link := (elapseLink d t).link, linkStatus := (elapseLink d t).linkStatus,
        linkWait := (elapseLink d t).linkWait,
        race := (elapseRace d t).race, raceStatus := (elapseRace d t).raceStatus,
        raceWait := (elapseRace d t).raceWait,
        pulse := elapsePulse d t.pulse,
        computation := t.computation.map fun c => { c with elapsed := c.elapsed + d } } := by
  obtain ⟨l, q, w, hlink⟩ := elapseLink_frame d t
  obtain ⟨r, p, v, hrace⟩ := elapseRace_frame d t
  simp only [elapseTime, hlink, elapseRace_withLink, hrace]

/-- A count that runs again does so below the top, and stands FROZEN there (R42, R43). -/
theorem countingAt_eq (v : Micros) :
    countingAt v = if v.toNat = 4294967295 then .frozen .top else .counting := rfl

/-! ## A wait or a pulse that has µs left -/

/-- A link wait that does not end within the µs goes on (R38, R40). -/
theorem elapseLink_waits {d : Nat} {t : Timebase} (h : t.linkStatus = .waiting) (hd : d ≤ t.linkWait) :
    elapseLink d t = { t with linkWait := t.linkWait - d } := by
  simp [elapseLink, h, hd]

/-- Of µs beyond the end of a link wait link time takes the rest (R38, R40). -/
theorem elapseLink_counts_rest {d : Nat} {t : Timebase} (h : t.linkStatus = .waiting) (hd : t.linkWait < d) :
    elapseLink d t =
      { t with link := t.link + BitVec.ofNat 32 (d - t.linkWait), linkStatus := .counting, linkWait := 0 } := by
  simp [elapseLink, h, hd.not_ge]

/-- A race wait that does not end within the µs goes on (R38, R45). -/
theorem elapseRace_waits {d : Nat} {t : Timebase} (h : t.raceStatus = .waiting) (hd : d ≤ t.raceWait) :
    elapseRace d t = { t with raceWait := t.raceWait - d } := by
  simp [elapseRace, h, hd]

/-- Of µs beyond the end of a race wait race time counts the rest (R38, R45). -/
theorem elapseRace_counts_rest {d : Nat} {t : Timebase} (h : t.raceStatus = .waiting) (hd : t.raceWait < d) :
    elapseRace d t = countRace (d - t.raceWait) t := by
  simp [elapseRace, h, hd.not_ge]

/-- Settles O24: the time to each event is the count that runs, the counts that it leaves are those of
`elapseTime_eq`, and each event then moves its own. -/
theorem waitsAndPulseEnd : Obligations.WaitsAndPulseEnd := by
  intro s
  refine ⟨fun hwait => ⟨?linkStays, ?linkEnds⟩, fun hwait => ?race, fun hcount => ?top, fun d hpulse => ?pulse,
    fun d hwait => ⟨fun hd => ?linkWaits, fun hd => ?linkCounts⟩,
    fun d hwait => ⟨fun hd => ?raceWaits, fun hd => ?raceCounts⟩, fun d left hpulse => ?pulseLeft⟩
  case linkStays => simp [elapseTime_eq, elapseLink_waits hwait le_rfl]
  case linkEnds =>
    change execLinkWaitEnd s = _
    simp [execLinkWaitEnd, linkWaitRemaining, hwait, atInstant, State.withTime]
  case race =>
    have hstays : (elapse s.time.raceWait s).time.race = s.time.race := by
      simp [elapseTime_eq, elapseRace_waits hwait le_rfl]
    refine ⟨hstays, ?_⟩
    change execRaceWaitEnd s = _
    rw [execRaceWaitEnd, raceWaitRemaining, if_pos hwait, ← countingAt_eq, ← hstays]
    rfl
  case top =>
    refine ⟨?_, ?_⟩
    · have := s.time.race.isLt
      simp [elapseTime_eq, elapseRace_race, hcount, topMicros]
      omega
    · change execRaceTimeTop s = _
      simp [execRaceTimeTop, raceTopRemaining, hcount, atInstant, State.withTime, freezeRace, topMicros]
  case pulse =>
    change execGoPulseEnd s = _
    simp [execGoPulseEnd, hpulse, atInstant, State.withTime]
  case linkWaits => simp [elapseTime_eq, elapseLink_waits hwait hd, hwait]
  case linkCounts => simp [elapseTime_eq, elapseLink_counts_rest hwait hd]
  case raceWaits => simp [elapseTime_eq, elapseRace_waits hwait hd, hwait]
  case raceCounts =>
    simp only [elapse_time, elapseTime_eq, elapseRace_counts_rest hwait hd, countRace_race]
    exact ⟨rfl, rfl, rfl⟩
  case pulseLeft => simp [elapseTime_eq, hpulse, elapsePulse]

end Sys2Proof.Machine
end

section
/-! The field edge and its computation: which edges are taken, how each car is treated, and what the end of the
computation writes and offers (R54, R122, R127, R134 to R137, R178). -/

namespace Sys2Proof.Machine

open Sys2Proof Sys2Proof.Safety

/-! ## The edge -/

/-- The edges that are taken (R54, R179). -/
theorem edgeTaken_iff (low : Nat) (s : State) :
    edgeTaken low s = true ↔ 1 ≤ low ∧ configured s = true ∧ s.time.computation = none := by
  simp [edgeTaken, and_assoc]

/-- An edge that is taken latches both times, raises the field number and starts its computation (R54). -/
theorem execFieldEdge_taken {low : Nat} {s : State} (h : edgeTaken low s = true) :
    exec (.fieldEdge low) s =
      .next { s with
        time := { s.time with latch := some (s.time.link, s.time.race),
                              computation := some (startComputation s (s.fieldNumber + 1)) },
        fieldNumber := s.fieldNumber + 1, freeCount := s.freeCount + 1 } :=
  if_pos h

/-- Any other edge changes nothing (R54). -/
theorem execFieldEdge_ignored {low : Nat} {s : State} (h : ¬ edgeTaken low s = true) :
    exec (.fieldEdge low) s = .next s :=
  if_neg h

/-- The car that a computation shows, and the write it keeps for that car's entry, are those of `computeCar`. -/
theorem startComputation_car (s : State) (n : Micros) {c : Nat} (hc : c < 8) :
    (startComputation s n).bundle.cars[c]? = some (computeCar s (presentInstant s.time.link (setting s 6)) c).1 ∧
      (startComputation s n).writes[c]? = some (computeCar s (presentInstant s.time.link (setting s 6)) c).2 := by
  simp [startComputation, bundleFor, hc]

/-- The repeat fields (R135). -/
theorem isRepeat_iff (s : State) :
    isRepeat s = true ↔
      heldFlag s = true ∨ s.cyc.ring = .lost ∨ s.cyc.ring = .standby ∨ s.cyc.ring = .deferred := by
  simp [isRepeat, or_assoc]

/-! ## The treatment of a car, row by row (R127, R134, R135) -/

section
variable {s : State} {tp : Micros} {c : Nat}

/-- An own car: a car in use of this station (R134). -/
abbrev OwnCar (s : State) (c : Nat) : Prop :=
  (summaryAt (shownSummary s) c).state ≠ .vacant ∧ (summaryAt (shownSummary s) c).station = address s

/-- An own car with an own-report record shows it (R134). -/
theorem ownCar_of_record {k : CarSummary} {f : Freshness} {d : CarData} (h : ownRecord s k.seat = some d) :
    ownCar s k f = shownCar k .own f d.x d.y d.z d.heading d := by
  rw [ownCar, h]

/-- An own car without one is shown without values (R134). -/
theorem ownCar_of_none {k : CarSummary} {f : Freshness} (h : ownRecord s k.seat = none) :
    ownCar s k f = noneCar k f := by
  rw [ownCar, h]

/-- An own car is shown from its own-report record, and nothing is written. -/
theorem computeCar_own (h : OwnCar s c) :
    computeCar s tp c = (ownCar s (summaryAt (shownSummary s) c) (entryAt s c).fresh, none) :=
  if_pos h

/-- In a repeat field any other car is shown with its last presented values and the velocities and laps of its
stored data, or without values where it has none; nothing is written. -/
theorem computeCar_repeat (h : ¬ OwnCar s c) (hrep : isRepeat s = true) :
    computeCar s tp c =
      (match (entryAt s c).pres, (entryAt s c).data with
       | some q, some d =>
         shownCar (summaryAt (shownSummary s) c) .held (entryAt s c).fresh q.px q.py q.pz q.ph d
       | _, _ => noneCar (summaryAt (shownSummary s) c) (entryAt s c).fresh, none) := by
  refine (if_neg h).trans ((if_pos hrep).trans ?_)
  split <;> simp_all

/-- Otherwise a NONE entry is shown without values. -/
theorem computeCar_none (h : ¬ OwnCar s c) (hrep : ¬ isRepeat s = true) (hf : (entryAt s c).fresh = .none) :
    computeCar s tp c = (noneCar (summaryAt (shownSummary s) c) .none, none) := by
  refine (if_neg h).trans ((if_neg hrep).trans ?_)
  rw [hf]

/-- A GONE entry stands at its block data. -/
theorem computeCar_gone {d : CarData} (h : ¬ OwnCar s c) (hrep : ¬ isRepeat s = true)
    (hf : (entryAt s c).fresh = .gone) (hd : (entryAt s c).data = some d) :
    computeCar s tp c =
      (shownCar (summaryAt (shownSummary s) c) .standing .gone d.x d.y d.z d.heading d,
        some { fresh := .gone, pres := standingCar d }) := by
  refine (if_neg h).trans ((if_neg hrep).trans ?_)
  rw [hf, hd]

/-- A FRESH or STALE entry is extrapolated and smoothed. -/
theorem computeCar_presented {d : CarData} (h : ¬ OwnCar s c) (hrep : ¬ isRepeat s = true)
    (hf : (entryAt s c).fresh = .fresh ∨ (entryAt s c).fresh = .stale) (hd : (entryAt s c).data = some d) :
    computeCar s tp c =
      (shownCar (summaryAt (shownSummary s) c) .presented (freshnessFor s tp d)
          (presentCar s tp (entryAt s c).pres d).px (presentCar s tp (entryAt s c).pres d).py
          (presentCar s tp (entryAt s c).pres d).pz (presentCar s tp (entryAt s c).pres d).ph d,
        some { fresh := freshnessFor s tp d, pres := presentCar s tp (entryAt s c).pres d }) := by
  refine (if_neg h).trans ((if_neg hrep).trans ?_)
  rcases hf with hf | hf <;> rw [hf, hd]

end

/-- A car is STALE when its interval has been clamped to the horizon (R122, R128). -/
theorem freshnessFor_eq (s : State) (tp : Micros) (d : CarData) :
    freshnessFor s tp d =
      if ((setting s 7 * 1000 : Nat) : Int) < signedDiff tp d.linkStamp then .stale else .fresh := by
  unfold freshnessFor interval horizonMicros
  dsimp only
  by_cases hneg : signedDiff tp d.linkStamp < 0
  · have hbelow : ¬ ((setting s 7 * 1000 : Nat) : Int) < signedDiff tp d.linkStamp := by omega
    rw [if_pos hneg, if_neg hbelow]
    rfl
  · rw [if_neg hneg]
    split_ifs <;> simp_all

/-! ## The end of a computation (R127, R133, R137) -/

/-- An entry that the computation did not write, that has been cleared since or that is NONE stays. -/
theorem writeEntry_stays {live : Bool} {w : Option EntryWrite} {e : ReplicaEntry}
    (h : w = none ∨ live = false ∨ e.fresh = .none) : writeEntry live w e = e := by
  unfold writeEntry
  cases w with
  | none => rfl
  | some w => exact if_neg (by rcases h with h | h | h <;> simp_all)

/-- Any other entry takes its write, but that one made GONE meanwhile stays GONE. -/
theorem writeEntry_writes {w : EntryWrite} {e : ReplicaEntry} (h : e.fresh ≠ .none) :
    writeEntry true (some w) e =
      { e with fresh := if e.fresh = .gone then .gone else w.fresh, pres := some w.pres } := by
  simp [writeEntry, h]

/-- A Field Bundle has room where 208 bytes are free (R166, R178). -/
theorem roomFor_bundle (b : Bundle) (s : State) : roomFor s (.bundle b) = true ↔ 208 ≤ reportFree s :=
  decide_eq_true_iff

/-- The entries are written place by place. -/
theorem writeEntries_getElem? (k : Computation) (l : List ReplicaEntry) (i : Nat) :
    (writeEntries k l)[i]? = l[i]?.map (writeEntry (k.live.getD i false) (k.writes.getD i none)) :=
  List.getElem?_mapIdx

/-- Settles O26: the edges that are taken, the two ways of the bundle by the room for its 208 bytes, the rows of
`computeCar`, and the entries place by place. -/
theorem fieldEdgeAndItsBundle : Obligations.FieldEdgeAndItsBundle := by
  refine ⟨fun s low => ⟨fun hlow hconf hidle => ?taken, fun hnot => ?ignored⟩,
    fun s k hk => ⟨fun hroom => ?placed, fun hfull => ?dropped⟩,
    fun s low c hlow hconf hidle hc => ?cars, 
    fun k l => ⟨List.length_mapIdx, fun i e he => ⟨fun h => ?stays, fun w hw hlive hfresh => ?writes⟩⟩⟩
  case taken =>
    have htaken := (edgeTaken_iff low s).2 ⟨hlow, hconf, hidle⟩
    refine ⟨_, execFieldEdge_taken htaken, rfl, rfl, rfl, rfl, rfl, rfl, ?_⟩
    simp [startComputation, bundleFor]
  case ignored =>
    refine execFieldEdge_ignored fun htaken => ?_
    obtain ⟨hlow, hconf, hidle⟩ := (edgeTaken_iff low s).1 htaken
    rcases hnot with h | h | h
    · omega
    · simp [hconf] at h
    · exact h hidle
  case placed =>
    change execFieldComputationEnd s = _
    rw [execFieldComputationEnd, hk]
    exact congrArg _ (if_pos ((roomFor_bundle _ _).2 hroom))
  case dropped =>
    change execFieldComputationEnd s = _
    rw [execFieldComputationEnd, hk]
    exact congrArg _ (if_neg (mt (roomFor_bundle _ _).1 hfull.not_ge))
  case stays => rw [writeEntries_getElem?, he, Option.map_some, writeEntry_stays h]
  case writes =>
    rw [writeEntries_getElem?, he, Option.map_some, hw, hlive, writeEntry_writes hfresh]
  case cars =>
    obtain ⟨hcar, hwrite⟩ := startComputation_car s (s.fieldNumber + 1) hc
    intro q e tp own repeats shown blank
    have htaken := (edgeTaken_iff low s).2 ⟨hlow, hconf, hidle⟩
    refine ⟨_, _, _, _, execFieldEdge_taken htaken, rfl, rfl, hcar, hwrite, isRepeat_iff s,
      fun howns => ?own, fun hother hrep => ?repeated, fun hother hrep => ?formed⟩
    case own =>
      rw [computeCar_own howns]
      refine ⟨rfl, fun d hseat hd => ?_, fun hno => ?_⟩
      · exact ownCar_of_record (by rw [ownRecord, if_pos hseat, hd])
      · refine ownCar_of_none ?_
        rcases hno with hseat | hd
        · exact if_neg hseat.not_gt
        · rw [ownRecord, hd, ite_self]
    case repeated =>
      rw [computeCar_repeat hother ((isRepeat_iff s).2 hrep)]
      refine ⟨rfl, fun p d hp hd => ?_, fun hno => ?_⟩
      · simp only [show (entryAt s c).pres = some p from hp, show (entryAt s c).data = some d from hd]
        rfl
      · rcases hno with hno | hno
        · simp only [show (entryAt s c).pres = none from hno]
          rfl
        · simp only [show (entryAt s c).data = none from hno]
          cases (entryAt s c).pres <;> rfl
    case formed =>
      have hrep' := mt (isRepeat_iff s).1 hrep
      refine ⟨fun hf => ?none, fun d hf hd => ?gone, fun d hf hd => ?presented⟩
      case none => rw [computeCar_none hother hrep' hf]; exact ⟨rfl, rfl⟩
      case gone => rw [computeCar_gone hother hrep' hf hd]; exact ⟨rfl, rfl⟩
      case presented =>
        rw [computeCar_presented hother hrep' hf hd, freshnessFor_eq]
        exact ⟨rfl, rfl⟩

end Sys2Proof.Machine
end

section
/-! The firing of GO by counting: the instant at which link time reaches G, what the firing does to the timebase of any
station, and what it makes of the race at the anchor (R48, R50, R52, R81, R147). -/

namespace Sys2Proof.Machine

open Sys2Proof Sys2Proof.Safety

/-! ## The instant -/

/-- Link time has not reached a G that lies ahead of it (R48). -/
theorem not_reached_of_neg {g : Micros} {t : Timebase} (h : signedDiff t.link g < 0) : ¬ reached g t = true := by
  simp [reached, h]

/-- An ARMED schedule whose G lies ahead of a counting link time fires after the µs between them (R48). -/
theorem goRemaining_counting {s : State} {g : Micros} (hgo : s.time.go = .armed g)
    (hring : ¬ (s.cyc.ring = .deferred ∨ s.cyc.ring = .unconfigured)) (hcount : s.time.linkStatus = .counting)
    (hahead : signedDiff s.time.link g < 0) : goRemaining s = some (g - s.time.link).toNat := by
  simp [goRemaining, hgo, hring, reachRemaining, hcount, not_reached_of_neg hahead]

/-- A link time that counts stands at G when the µs to it have passed. -/
theorem elapse_reaches {s : State} (g : Micros) (hcount : s.time.linkStatus = .counting) :
    (elapse (g - s.time.link).toNat s).time.link = g := by
  simp only [elapse_time, elapseTime_eq, elapseLink, hcount, BitVec.ofNat_toNat, BitVec.setWidth_eq]
  rw [BitVec.add_comm, BitVec.sub_add_cancel]

/-- A link time at G differs from it by 0. -/
theorem signedDiff_self (g : Micros) : signedDiff g g = 0 := by simp [signedDiff]

/-- Time that passes leaves the GO schedule. -/
@[simp] theorem elapseTime_go (d : Nat) (t : Timebase) : (elapseTime d t).go = t.go := by simp [elapseTime_eq]

/-- GO fires by counting at the instant at which link time stands at G. -/
theorem execGoFire_counting {s : State} {g : Micros} (hgo : s.time.go = .armed g)
    (hring : ¬ (s.cyc.ring = .deferred ∨ s.cyc.ring = .unconfigured)) (hcount : s.time.linkStatus = .counting)
    (hahead : signedDiff s.time.link g < 0) :
    exec .goFire s = .next
      (if anchorRole s = true then fireAtAnchor g (elapse (g - s.time.link).toNat s)
       else fireGo g 0 (firingStatus s.cyc.ring) (elapse (g - s.time.link).toNat s)) := by
  change execGoFire s = _
  have hzero : signedDiff (elapse (g - s.time.link).toNat s).time.link g = 0 := by
    rw [elapse_reaches g hcount, signedDiff_self]
  rw [execGoFire, goRemaining_counting hgo hring hcount hahead, atInstant, fireNow, elapse_time, elapseTime_go, hgo]
  dsimp only
  rw [← elapse_time, hzero]
  rfl

/-! ## The timebase at the firing -/

/-- Firing at G itself sets race time to 0, and the late flag is clear (R48, R50). -/
theorem fireGo_zero (g : Micros) (st : RaceStatus) (s : State) :
    fireGo g 0 st s =
      queueEvent (.go g s.time.link 0 false)
        { s with time := { s.time with go := .fired g, pulse := some 2000, race := 0, raceWait := 0,
                                       raceStatus := st } } := rfl

/-! ## The race at the firing -/

/-- No car is RACING. -/
theorem racingCount_eq_zero_iff (r : RaceControl) :
    racingCount r = 0 ↔ ¬ ∃ k ∈ r.cars, k.state = .racing := by
  simp [racingCount]

/-- After GO the RACING cars are those that were ENTERED or RACING (R81). -/
theorem racing_startCars_iff (race : Micros) (r : RaceControl) :
    (∃ k ∈ (startCars race r).cars, k.state = .racing) ↔
      ∃ k ∈ r.cars, k.state = .entered ∨ k.state = .racing := by
  have hcar : ∀ k : Car, (if k.state = .entered then racingCar race k else k).state = .racing ↔
      k.state = .entered ∨ k.state = .racing := fun k => by
    split
    · next h => simp [racingCar, h]
    · next h => simp [h]
  simp [startCars, hcar]

/-- A race with a car RACING does not end (R147). -/
theorem testRaceEnd_stays {s : State} (h : ∃ k ∈ s.race.cars, k.state = .racing) : testRaceEnd s = s :=
  if_neg fun hend => (racingCount_eq_zero_iff s.race).1 hend.2 h

/-- The state in which a race has ended: RESULTS, every entry confirmed, no cause, race time frozen, and the PHASE
report (R83, R147). -/
def raceEnded (s : State) : State :=
  queueEvent (.phase .results false { fault := false, command := false } s.time.race .noRacingCar)
    ((s.withRace { confirmList s.race with phase := .results, causes := HeldCauses.none }).withTime
      (freezeRace .results s.time))

/-- A race in RUNNING or CLOSING with no car RACING ends (R147). -/
theorem testRaceEnd_ends {s : State} (hphase : s.race.phase = .running ∨ s.race.phase = .closing)
    (h : ¬ ∃ k ∈ s.race.cars, k.state = .racing) : testRaceEnd s = raceEnded s :=
  if_pos ⟨hphase, (racingCount_eq_zero_iff s.race).2 h⟩

@[simp] theorem raceEnded_time (s : State) :
    (raceEnded s).time = { s.time with raceStatus := .frozen .results, raceWait := 0 } := by
  simp [raceEnded, freezeRace]

@[simp] theorem raceEnded_race (s : State) :
    (raceEnded s).race =
      { s.race with phase := .results, causes := { fault := false, command := false },
                    finish := confirmFrom (racingStamps s.race) s.race.finish } := by
  simp [raceEnded, confirmList, HeldCauses.none]

/-- The end of a race changes the race controller, the timebase and the port alone. -/
@[simp] theorem raceEnded_leaves (s : State) :
    (raceEnded s).cyc = s.cyc ∧ (raceEnded s).survey = s.survey ∧ (raceEnded s).slots = s.slots ∧
      (raceEnded s).seat = s.seat ∧ (raceEnded s).settings = s.settings := by
  simp [raceEnded]

theorem raceEnded_port (s : State) :
    (raceEnded s).port =
      (queueEvent (.phase .results false { fault := false, command := false } s.time.race .noRacingCar) s).port :=
  queueEvent_port _ _ _ rfl

/-- The state in which GO has fired at the anchor at G itself, before the test for the end of the race: RUNNING, the
ENTERED cars RACING, and the countdown fault mark turned into the cause FAULT (R48, R52, R81). -/
def raceRunning (g : Micros) (s : State) : State :=
  let st := if s.race.countdownMark then RaceStatus.frozen .held else .counting
  let causes : HeldCauses := { fault := s.race.countdownMark, command := false }
  let fired := queueEvent (.go g s.time.link 0 false)
    { s with time := { s.time with go := .fired g, pulse := some 2000, race := 0, raceWait := 0, raceStatus := st } }
  queueEvent (.phase .running s.race.countdownMark causes 0 .goFired)
    (fired.withRace { startCars 0 s.race with phase := .running, causes := causes, countdownMark := false })

/-- GO at the anchor at G itself is the start of the race and the test for its end. -/
theorem fireAtAnchor_at {g : Micros} {s : State} (hlink : s.time.link = g) :
    fireAtAnchor g s = testRaceEnd (raceRunning g s) := by
  have hzero : (signedDiff s.time.link g).toNat = 0 := by rw [hlink, signedDiff_self]; rfl
  simp only [fireAtAnchor, hzero, fireGo_zero, raceRunning, queuePhase, queueEvent_leaves, State.withRace_race,
    State.withRace_time, anyCause, Bool.or_false]

section
variable (g : Micros) (s : State)

@[simp] theorem raceRunning_time :
    (raceRunning g s).time =
      { s.time with go := .fired g, pulse := some 2000, race := 0, raceWait := 0,
                    raceStatus := if s.race.countdownMark then .frozen .held else .counting } := by
  simp [raceRunning]

@[simp] theorem raceRunning_race :
    (raceRunning g s).race =
      { startCars 0 s.race with phase := .running, causes := { fault := s.race.countdownMark, command := false },
                                countdownMark := false } := by
  simp [raceRunning]

/-- The start of the race changes the timebase, the race controller and the port alone. -/
@[simp] theorem raceRunning_leaves :
    (raceRunning g s).cyc = s.cyc ∧ (raceRunning g s).survey = s.survey ∧ (raceRunning g s).slots = s.slots ∧
      (raceRunning g s).seat = s.seat ∧ (raceRunning g s).settings = s.settings := by
  simp [raceRunning]

/-- The reports of the start: GO, and behind it the PHASE report RUNNING (R50, R78). -/
theorem raceRunning_port :
    (raceRunning g s).port =
      (queueEvent (.phase .running s.race.countdownMark { fault := s.race.countdownMark, command := false } 0
        .goFired) (queueEvent (.go g s.time.link 0 false) s)).port :=
  queueEvent_port _ _ _ (queueEvent_port _ _ _ rfl)

end

/-- Settles O25: link time stands at G as GO fires; at the anchor the race starts and is tested for its end, at a
node the timebase alone fires. -/
theorem goFires : Obligations.GoFires := by
  refine ⟨fun s g hact hgo hcount hahead => ?anchor, fun s g hnode htakes hgo hcount hahead => ?node⟩
  case anchor =>
    have hanchor : anchorRole s = true := by simp_all [actingAnchor]
    have hring : ¬ (s.cyc.ring = .deferred ∨ s.cyc.ring = .unconfigured) := by
      rintro (h | h) <;> simp [actingAnchor, emitting, h] at hact
    have hlink := elapse_reaches (s := s) g hcount
    rw [execGoFire_counting hgo hring hcount hahead, if_pos hanchor, fireAtAnchor_at hlink]
    generalize hu : elapse (g - s.time.link).toNat s = u at hlink
    have hcars : (∃ k ∈ (raceRunning g u).race.cars, k.state = .racing) ↔
        ∃ k ∈ s.race.cars, k.state = .entered ∨ k.state = .racing := by
      rw [raceRunning_race, ← hu]
      exact racing_startCars_iff 0 s.race
    have hport : (raceRunning g u).port =
        (queueEvent (.phase .running s.race.countdownMark { fault := s.race.countdownMark, command := false } 0
          .goFired) (queueEvent (.go g g 0 false) s)).port := by
      rw [raceRunning_port, hlink, ← hu]
      exact queueEvent_port _ _ _ (queueEvent_port _ _ _ rfl)
    obtain ⟨hrace, hring', hslots, hseat, hsurvey, hsettings⟩ :
        u.race = { s.race with referral := u.race.referral } ∧ u.cyc.ring = s.cyc.ring ∧ u.slots = s.slots ∧
          u.seat = s.seat ∧ u.survey = s.survey ∧ u.settings = s.settings := by
      subst hu
      exact ⟨rfl, rfl, rfl, rfl, rfl, rfl⟩
    refine ⟨_, rfl, ?_⟩
    by_cases hracing : ∃ k ∈ s.race.cars, k.state = .entered ∨ k.state = .racing
    case pos =>
      rw [testRaceEnd_stays (hcars.2 hracing), if_pos hracing]
      simp only [if_pos hracing, hport, raceRunning_time, raceRunning_race, raceRunning_leaves, hlink, hring', hslots,
        hseat, hsurvey, hsettings, true_and, and_true]
      rw [hrace]
      exact ⟨rfl, ⟨rfl, rfl⟩, rfl, rfl⟩
    case neg =>
      rw [testRaceEnd_ends (by simp) (mt hcars.1 hracing), if_neg hracing]
      simp only [if_neg hracing, raceEnded_time, raceEnded_race, raceEnded_leaves, raceEnded_port, raceRunning_time,
        raceRunning_race, raceRunning_leaves, hlink, hring', hslots, hseat, hsurvey, hsettings, true_and, and_true]
      rw [hrace]
      exact ⟨rfl, queueEvent_port _ _ _ hport, rfl, rfl⟩
  case node =>
    have hanchor : ¬ anchorRole s = true := by
      cases hrole : role s <;> simp_all [nodeRole, anchorRole]
    have hring : ¬ (s.cyc.ring = .deferred ∨ s.cyc.ring = .unconfigured) := by
      rintro (h | h) <;> simp [nodeTakes, h] at htakes
    have hlink := elapse_reaches (s := s) g hcount
    rw [execGoFire_counting hgo hring hcount hahead, if_neg hanchor, fireGo_zero, hlink]
    refine ⟨_, rfl, by simpa using hlink, by simp, by simp, by simp, ?status, ?port, by simp⟩
    case status => cases hring : s.cyc.ring <;> simp_all [firingStatus, nodeTakes]
    case port => exact queueEvent_port _ _ _ rfl

end Sys2Proof.Machine
end

section
/-! What the rest of a frame leaves of a node once its header has been taken: neither the cycle processor nor the counts
of the timebase change while blocks and slots pass (R6, R68, R112, R116, R120). -/

namespace Sys2Proof.Machine

open Sys2Proof Sys2Proof.Safety

/-- The timebase without its field computation, which alone a cleared replica entry touches (R127). -/
def clock (t : Timebase) : Timebase := { t with computation := none }

/-- The cycle processor and the counts of the timebase. -/
def ringAndClock (s : State) : CycleProc × Timebase := (s.cyc, clock s.time)

/-- An operation that leaves the cycle processor and the timebase leaves the counts. -/
theorem ringAndClock_of_leaves {s t : State} (hcyc : t.cyc = s.cyc) (htime : t.time = s.time) :
    ringAndClock t = ringAndClock s := by
  rw [ringAndClock, ringAndClock, hcyc, htime]

/-! ## The replica store and the seats -/

@[simp] theorem ringAndClock_clearEntry (c : Nat) (s : State) : ringAndClock (clearEntry c s) = ringAndClock s := rfl

@[simp] theorem ringAndClock_clearReplica (s : State) : ringAndClock (clearReplica s) = ringAndClock s :=
  foldl_keeps ringAndClock (fun s c => ringAndClock_clearEntry c s) _ _

@[simp] theorem ringAndClock_summarySetEntry (l : List CarSummary) (c : Nat) (s : State) :
    ringAndClock (summarySetEntry l c s) = ringAndClock s := by
  unfold summarySetEntry
  dsimp only
  split_ifs <;> rfl

@[simp] theorem ringAndClock_summarySet (l : List CarSummary) (s : State) :
    ringAndClock (summarySet l s) = ringAndClock s :=
  foldl_keeps ringAndClock (fun s c => ringAndClock_summarySetEntry l c s) _ _

@[simp] theorem ringAndClock_clearStationsCopy (s : State) :
    ringAndClock (clearStationsCopy s) = ringAndClock s := by
  let t := s.withSeat { s.seat with ready := false, attentionPending := false }
  calc ringAndClock (clearStationsCopy s)
    _ = ringAndClock (clearReplica t) :=
        ringAndClock_of_leaves (by simp only [clearStationsCopy, queueSeats_leaves, t])
          (by simp only [clearStationsCopy, queueSeats_leaves, t])
    _ = ringAndClock s := ringAndClock_clearReplica t

/-! ## Slots -/

@[simp] theorem ringAndClock_copyBroadcast (m : SlotMsg) (s : State) :
    ringAndClock (copyBroadcast m s) = ringAndClock s := by
  unfold copyBroadcast
  split
  · split <;> exact ringAndClock_of_leaves (by simp) (by simp)
  · exact ringAndClock_clearStationsCopy s
  · rfl

/-- A slot in use at a node: its own answer or outcome, its service, its copy and its hold mark touch other blocks. -/
@[simp] theorem ringAndClock_nodeSlot (place : Nat) (m : SlotMsg) (s : State) :
    ringAndClock (nodeSlot place m s).2 = ringAndClock s := by
  unfold nodeSlot
  split_ifs
  · exact ringAndClock_of_leaves (by simp) (by simp)
  · rfl
  · exact ringAndClock_of_leaves (by simp) (by simp)
  · rfl
  · have hserved : ringAndClock (serveSlot m s).1 = ringAndClock s := ringAndClock_of_leaves (by simp) (by simp)
    split
    · next heq => rwa [heq] at hserved
    · next heq => rwa [heq] at hserved
  · exact ringAndClock_copyBroadcast m s
  · rfl
  · rfl
  · rfl

@[simp] theorem ringAndClock_postStep (free : Bool) (place : Nat) (slot : Slot) (p : SlotPass) (s : State) :
    ringAndClock (postStep free place slot p s).2.2 = ringAndClock s :=
  ringAndClock_of_leaves (by simp) (by simp)

@[simp] theorem ringAndClock_passSlot (free : Bool) (syms : List RxSym) (i : Nat) (p : SlotPass) (s : State) :
    ringAndClock (passSlot free syms i p s).2.2 = ringAndClock s := by
  unfold passSlot
  dsimp only
  split
  · rfl
  · next slot _ => cases slot <;> simp

@[simp] theorem ringAndClock_passSlots (free : Bool) (syms : List RxSym) (i n : Nat) (p : SlotPass) (s : State) :
    ringAndClock (passSlots free syms i n p s).2.2 = ringAndClock s := by
  induction n generalizing i p s with
  | zero => rfl
  | succ n ih => exact (ih _ _ _).trans (ringAndClock_passSlot free syms i p s)

/-! ## Blocks, and the rest of a frame -/

@[simp] theorem ringAndClock_passBlock (h : Header) (syms : List RxSym) (c : Nat) (s : State) :
    ringAndClock (passBlock h syms c s).2 = ringAndClock s := by
  unfold passBlock
  dsimp only
  split
  · rfl
  · exact ringAndClock_of_leaves (by simp) (by simp)

@[simp] theorem ringAndClock_passBlocks (h : Header) (syms : List RxSym) (c n : Nat) (s : State) :
    ringAndClock (passBlocks h syms c n s).2 = ringAndClock s := by
  induction n generalizing c s with
  | zero => rfl
  | succ n ih => exact (ih _ _).trans (ringAndClock_passBlock h syms c s)

@[simp] theorem ringAndClock_withSlots (s : State) (e : SlotEngine) :
    ringAndClock (s.withSlots e) = ringAndClock s := rfl

/-- The rest of a frame behind its header leaves the cycle processor and the counts of the timebase. -/
theorem ringAndClock_passMapped (h : Header) (syms : List RxSym) (s : State) :
    ringAndClock (passMapped h syms s).2 = ringAndClock s := by
  simp [passMapped]

theorem ringAndClock_passUnmapped (h : Header) (syms : List RxSym) (s : State) :
    ringAndClock (passUnmapped h syms s).2 = ringAndClock s := rfl

end Sys2Proof.Machine
end

section
/-! The timebase and the ring state behind a cycle frame with a valid header at a node: the header's test, the alignment
of link time and the rows of race time, told once for every clause about them (R6, R9, R40 to R49). -/

namespace Sys2Proof.Machine

open Sys2Proof Sys2Proof.Safety

/-- Timebases that agree but for the computation agree in every count. -/
theorem counts_of_clock_eq {a b : Timebase} (h : clock a = clock b) :
    a.link = b.link ∧ a.linkStatus = b.linkStatus ∧ a.linkWait = b.linkWait ∧ a.race = b.race ∧
      a.raceStatus = b.raceStatus ∧ a.raceWait = b.raceWait ∧ a.go = b.go ∧ a.pulse = b.pulse ∧
      a.latch = b.latch := by
  simpa [clock] using h

/-! ## The header's test (R9) -/

/-- A header tests FRESH when its map lists the station and its epoch is the surveyed one, not yet mapped. -/
theorem ringTest_eq_fresh_iff (h : Header) (s : State) :
    ringTest h s = .fresh ↔
      h.epoch = s.survey.surveyedEpoch ∧ h.epoch ≠ s.cyc.mappedEpoch ∧ lists h.map (address s) = true := by
  unfold ringTest
  split_ifs with hfresh
  · exact iff_of_true rfl hfresh
  · exact iff_of_false (by simp) hfresh
  · exact iff_of_false (by simp) hfresh

/-- A header maps the station when its test is FRESH or REJOIN. -/
theorem ringTest_ne_notMapped_iff (h : Header) (s : State) : ringTest h s ≠ .notMapped ↔ HeaderMaps h s := by
  unfold ringTest
  split_ifs with hfresh hrejoin
  · exact iff_of_true (by simp) ⟨hfresh.2.2, .inl ⟨hfresh.1, hfresh.2.1⟩⟩
  · exact iff_of_true (by simp) ⟨hrejoin.2.2, .inr ⟨hrejoin.1, hrejoin.2.1⟩⟩
  · refine iff_of_false (by simp) ?_
    rintro ⟨hlists, ⟨hs, hm⟩ | ⟨hm, hz⟩⟩
    · exact hfresh ⟨hs, hm, hlists⟩
    · exact hrejoin ⟨hm, hz, hlists⟩

/-- The test reads the survey unit, the cycle processor and the settings. -/
theorem ringTest_congr {s u : State} (h : Header) (hsurvey : u.survey = s.survey) (hcyc : u.cyc = s.cyc)
    (hset : u.settings = s.settings) : ringTest h u = ringTest h s := by
  simp [ringTest, address, setting, hsurvey, hcyc, hset]

/-! ## The ring state and the mirrors -/

/-- A header that maps the station leaves it MAPPED, and no count of the timebase moves with the ring state. -/
theorem takeHeader_mapped {t : RingTest} (ht : t ≠ .notMapped) (h : Header) (s : State) :
    (takeHeader t h s).cyc.ring = .mapped ∧ (takeHeader t h s).time = s.time ∧
      (takeHeader t h s).settings = s.settings := by
  cases t
  case notMapped => exact absurd rfl ht
  all_goals
    simp only [takeHeader, becomeMapped]
    split <;> simp [setRing]

/-- A header that does not leaves it UNMAPPED, and race time freezes on the entry (R9, R44). -/
theorem takeHeader_notMapped (h : Header) (s : State) :
    (takeHeader .notMapped h s).cyc.ring = .unmapped ∧
      (takeHeader .notMapped h s).time =
        if s.cyc.ring = .unmapped then s.time else freezeByRing .notMapped s.time := by
  simp only [takeHeader, becomeUnmapped, State.withCyc_cyc]
  split <;> simp_all [setRing]

/-! ## Race time and the GO schedule, with their frame -/

/-- What a firing makes of the timebase. -/
theorem fireGo_time (g : Micros) (v : Nat) (st : RaceStatus) (s : State) :
    (fireGo g v st s).time = startPulse (setRaceTime v st { s.time with go := .fired g }) := by
  simp [fireGo]

/-- The schedule's part of a header moves race time and the schedule alone. -/
theorem scheduleFromHeader_frame (mapped : Bool) (h : Header) (t : Timebase) :
    ∃ r q w g, scheduleFromHeader mapped h t = { t with race := r, raceStatus := q, raceWait := w, go := g } := by
  unfold scheduleFromHeader
  dsimp only
  split_ifs <;> exact ⟨_, _, _, _, rfl⟩

/-- Alignment moves race time alone. -/
theorem alignRace_frame (target : Nat) (t : Timebase) :
    ∃ r q w, alignRace target t = { t with race := r, raceStatus := q, raceWait := w } := by
  unfold alignRace
  split_ifs
  · exact ⟨_, _, _, rfl⟩
  · exact ⟨_, _, _, rfl⟩
  · obtain ⟨r, q, hset⟩ := setRaceTime_frame target .counting t
    exact ⟨r, q, 0, hset⟩
  · exact ⟨_, _, _, rfl⟩
  · exact ⟨_, _, _, rfl⟩

/-- A thaw moves race time alone. -/
theorem thawRace_frame (t : Timebase) : ∃ q w, thawRace t = { t with raceStatus := q, raceWait := w } := by
  unfold thawRace resumeRace
  split <;> exact ⟨_, _, rfl⟩

/-- The race rows of a header move race time, the schedule and the pulse of the timebase. -/
theorem raceFromHeader_frame (h : Header) (target : Nat) (s : State) :
    ∃ r q w g p, (raceFromHeader h target s).time =
      { s.time with race := r, raceStatus := q, raceWait := w, go := g, pulse := p } := by
  have hfire : ∀ g v st, ∃ r q w g' p, (fireGo g v st s).time =
      { s.time with race := r, raceStatus := q, raceWait := w, go := g', pulse := p } := fun g v st => by
    obtain ⟨r, q, hset⟩ := setRaceTime_frame v st { s.time with go := .fired g }
    exact ⟨r, q, 0, .fired g, some pulseMicros, by rw [fireGo_time, hset]; rfl⟩
  have hrunning : ∃ r q w g p, (raceOnRunning h target s).time =
      { s.time with race := r, raceStatus := q, raceWait := w, go := g, pulse := p } := by
    unfold raceOnRunning
    split
    · exact hfire _ _ _
    · exact hfire _ _ _
    · split
      · exact ⟨_, _, _, _, _, rfl⟩
      · obtain ⟨r, q, w, halign⟩ := alignRace_frame target s.time
        exact ⟨r, q, w, _, _, by rw [State.withTime_time, halign]⟩
  unfold raceFromHeader
  split
  · exact ⟨_, _, _, _, _, rfl⟩
  · exact ⟨_, _, _, _, _, rfl⟩
  · unfold raceOnCountdown
    split
    · exact ⟨_, _, _, _, _, rfl⟩
    · split
      · exact hfire _ _ _
      · exact ⟨_, _, _, _, _, rfl⟩
    · obtain ⟨q, w, hthaw⟩ := thawRace_frame s.time
      exact ⟨_, q, w, _, _, by rw [State.withTime_time, hthaw]⟩
  · exact hrunning
  · exact hrunning
  · unfold raceOnResults
    split <;> exact ⟨_, _, _, _, _, rfl⟩

/-- The race rows of a header leave the cycle processor. -/
theorem raceFromHeader_cyc (h : Header) (target : Nat) (s : State) : (raceFromHeader h target s).cyc = s.cyc := by
  unfold raceFromHeader raceOnCountdown raceOnRunning raceOnResults
  repeat' split
  all_goals simp

/-! ## The whole work of a header, and the frame behind it -/

/-- The link count as a header of a test aligns it (R40, R41). -/
def alignedLink (t : RingTest) (h : Header) (tr : Nat) (b : Timebase) : Timebase :=
  if t = .fresh then realignLink (linkTarget h tr) b else alignLink (linkTarget h tr) b

/-- At a header that maps the station link time is aligned, and the race rows follow. -/
theorem timeFromHeader_mapped {t : RingTest} (ht : t ≠ .notMapped) (h : Header) (slow : Bool) (s : State) :
    timeFromHeader t h slow s =
      raceFromHeader h (raceTarget h (transit h (positionIn h s) slow))
        (s.withTime (alignedLink t h (transit h (positionIn h s) slow) (scheduleFromHeader true h s.time))) := by
  cases t
  case notMapped => exact absurd rfl ht
  case fresh => rfl
  case rejoin => rfl

/-- Behind the header's times come reports, seats, replicas and release marks alone. -/
theorem ringAndClock_headerWork (t : RingTest) (h : Header) (slow : Bool) (s : State) :
    ringAndClock (headerWork t h slow s) = ringAndClock (timeFromHeader t h slow (takeHeader t h s)) := by
  have hphase : ∀ old v, ringAndClock (phaseFromHeader old h v) = ringAndClock v := fun old v => by
    unfold phaseFromHeader
    split
    · exact ringAndClock_of_leaves (by simp) (by simp)
    · rfl
  have hplacing : ∀ old v, ringAndClock (placingFromHeader old h v) = ringAndClock v := fun old v => by
    unfold placingFromHeader
    dsimp only
    split
    · rfl
    · exact ringAndClock_of_leaves (by simp) (by simp)
  have hseats : ∀ v, ringAndClock (mirrorSeats h.summary v) = ringAndClock v := fun v =>
    ringAndClock_of_leaves (by simp) (by simp)
  have hmarks : ∀ v, ringAndClock (setReleaseMarks v) = ringAndClock v := fun v => rfl
  unfold headerWork
  dsimp only
  split_ifs <;> simp only [hmarks, ringAndClock_summarySet, hseats, hplacing, hphase]

/-- A cycle frame with a valid header is taken: the counts behind it are those behind the header's own times. -/
theorem exec_nodeCycleFrame_header {f : RxFrame} {s : State} {h : Header} (htakes : NodeTakes f s)
    (hparse : parseHeader (headerPart f.symbols) = some h) :
    ∃ t, exec (.nodeCycleFrame f) s = .next t ∧
      ringAndClock t =
        ringAndClock (timeFromHeader (ringTest h s) h f.slowHeader
          (takeHeader (ringTest h s) h (endWaitedOut (heard s)))) := by
  obtain ⟨hreceives, hwhole⟩ := htakes
  obtain ⟨hnode, hring, hup⟩ : nodeRole s = true ∧ nodeTakes s.cyc.ring = true ∧ s.link.rx = .up := by
    simpa [nodeReceives, and_assoc] using hreceives
  have hanchor : ¬ anchorRole s = true := by
    cases hrole : role s <;> simp_all [nodeRole, anchorRole]
  have hheard : nodeReceives (heard s) = true := by
    simpa [nodeReceives, heard, hup, nodeRole, role, setting] using hreceives
  have htest : ringTest h (endWaitedOut (heard s)) = ringTest h s :=
    ringTest_congr h (by simp) (by simp) (by simp)
  have hexec : exec (.nodeCycleFrame f) s = .next (forwarded .cycle (nodeCycle f.slowHeader f.symbols (heard s))) := by
    change execNodeCycleFrame f s = _
    rw [execNodeCycleFrame, nodeFrame, if_neg hanchor, hearFrame, if_pos hup, hwhole]
    simp only [hheard, if_true, nodeTake]
  refine ⟨_, hexec, ?_⟩
  have hforward : ∀ r, ringAndClock (forwarded .cycle r) = ringAndClock r.2 := fun r =>
    ringAndClock_of_leaves (by simp [forwarded]) (by simp [forwarded])
  rw [hforward, nodeCycle, hparse, ← ringAndClock_headerWork]
  dsimp only
  rw [htest]
  split
  · exact ringAndClock_passUnmapped _ _ _
  · exact ringAndClock_passMapped _ _ _

/-- A cycle frame whose header maps the node. -/
theorem exec_nodeCycleFrame_mapped {f : RxFrame} {s : State} {h : Header} (htakes : NodeTakes f s)
    (hparse : parseHeader (headerPart f.symbols) = some h) (hmaps : HeaderMaps h s) :
    ∃ t u, exec (.nodeCycleFrame f) s = .next t ∧ t.cyc.ring = .mapped ∧
      u.time = alignedLink (ringTest h s) h (transit h (positionIn h s) f.slowHeader)
        (scheduleFromHeader true h s.time) ∧
      clock t.time =
        clock (raceFromHeader h (raceTarget h (transit h (positionIn h s) f.slowHeader)) u).time := by
  have htest := (ringTest_ne_notMapped_iff h s).2 hmaps
  obtain ⟨t, hexec, hsame⟩ := exec_nodeCycleFrame_header htakes hparse
  obtain ⟨hring, htime, hset⟩ := takeHeader_mapped htest h (endWaitedOut (heard s))
  have hpos : positionIn h (takeHeader (ringTest h s) h (endWaitedOut (heard s))) = positionIn h s := by
    simp [positionIn, address, setting, hset]
  rw [timeFromHeader_mapped htest, hpos, htime] at hsame
  obtain ⟨hcyc, hclock⟩ := Prod.mk.inj hsame
  rw [raceFromHeader_cyc] at hcyc
  exact ⟨t, _, hexec, by rw [hcyc]; exact hring, by simp, hclock⟩

/-- A cycle frame whose header does not map the node. -/
theorem exec_nodeCycleFrame_unmapped {f : RxFrame} {s : State} {h : Header} (htakes : NodeTakes f s)
    (hparse : parseHeader (headerPart f.symbols) = some h) (hmaps : ¬ HeaderMaps h s) :
    ∃ t, exec (.nodeCycleFrame f) s = .next t ∧ t.cyc.ring = .unmapped ∧
      clock t.time =
        clock (scheduleFromHeader false h
          (if s.cyc.ring = .unmapped then s.time else freezeByRing .notMapped s.time)) := by
  have htest : ringTest h s = .notMapped := by_contra fun hne => hmaps ((ringTest_ne_notMapped_iff h s).1 hne)
  obtain ⟨t, hexec, hsame⟩ := exec_nodeCycleFrame_header htakes hparse
  obtain ⟨hring, htime⟩ := takeHeader_notMapped h (endWaitedOut (heard s))
  rw [htest] at hsame
  obtain ⟨hcyc, hclock⟩ := Prod.mk.inj hsame
  refine ⟨t, hexec, by rw [hcyc]; exact hring, ?_⟩
  rw [hclock, timeFromHeader, State.withTime_time, htime]
  simp

end Sys2Proof.Machine
end

section
/-! What a cycle frame with a valid header does to link time at a node (R39, R40, R41). -/

namespace Sys2Proof.Machine

open Sys2Proof Sys2Proof.Safety

/-- Link times that differ by 0 are equal. -/
theorem eq_of_signedDiff_eq_zero {a b : Micros} (h : signedDiff a b = 0) : a = b := by
  have hzero : a - b = 0 := BitVec.eq_of_toInt_eq (by simpa [signedDiff] using h)
  simpa using congrArg (· + b) hzero

/-- A target behind link time lets it wait the difference (R40). -/
theorem alignLink_behind {target : Micros} {t : Timebase} (h : signedDiff target t.link < 0) :
    alignLink target t =
      { t with linkStatus := .waiting, linkWait := (-signedDiff target t.link).toNat } := by
  unfold alignLink
  rw [if_neg (by omega), if_neg (by omega)]

/-- A target at link time or ahead of it is taken at once (R40). -/
theorem alignLink_ahead {target : Micros} {t : Timebase} (h : ¬ signedDiff target t.link < 0) :
    alignLink target t = realignLink target t := by
  unfold alignLink realignLink
  dsimp only
  by_cases hpos : 0 < signedDiff target t.link
  · rw [if_pos hpos]
  · have hzero : signedDiff target t.link = 0 := by omega
    rw [if_neg hpos, if_pos hzero, eq_of_signedDiff_eq_zero hzero]

/-- Link time aligned, by the side of the target (R40). -/
theorem alignLink_cases (target : Micros) (t : Timebase) :
    if signedDiff target t.link < 0 then
      (alignLink target t).link = t.link ∧ (alignLink target t).linkStatus = .waiting ∧
        (alignLink target t).linkWait = (-signedDiff target t.link).toNat
    else
      (alignLink target t).link = target ∧ (alignLink target t).linkStatus = .counting ∧
        (alignLink target t).linkWait = 0 := by
  split_ifs with hbehind
  · rw [alignLink_behind hbehind]
    exact ⟨rfl, rfl, rfl⟩
  · rw [alignLink_ahead hbehind]
    exact ⟨rfl, rfl, rfl⟩

/-- The link count behind a frame whose header maps the node is the aligned one (R40, R41). -/
theorem link_of_mapped {f : RxFrame} {s : State} {h : Header} {t u : State}
    (hu : u.time = alignedLink (ringTest h s) h (transit h (positionIn h s) f.slowHeader)
      (scheduleFromHeader true h s.time))
    (hclock : clock t.time =
      clock (raceFromHeader h (raceTarget h (transit h (positionIn h s) f.slowHeader)) u).time) :
    let b := alignedLink (ringTest h s) h (transit h (positionIn h s) f.slowHeader) s.time
    t.time.link = b.link ∧ t.time.linkStatus = b.linkStatus ∧ t.time.linkWait = b.linkWait := by
  obtain ⟨r, q, w, g, p, hrace⟩ :=
    raceFromHeader_frame h (raceTarget h (transit h (positionIn h s) f.slowHeader)) u
  obtain ⟨r', q', w', g', hschedule⟩ := scheduleFromHeader_frame true h s.time
  obtain ⟨hlink, hstatus, hwait, -⟩ := counts_of_clock_eq hclock
  rw [hrace, hu, hschedule] at hlink hstatus hwait
  rw [hlink, hstatus, hwait]
  unfold alignedLink alignLink realignLink
  dsimp only
  split_ifs <;> exact ⟨rfl, rfl, rfl⟩

/-- A freeze by the ring moves the status and the wait of race time alone. -/
theorem freezeByRing_frame (c : FreezeCause) (t : Timebase) :
    ∃ q w, freezeByRing c t = { t with raceStatus := q, raceWait := w } := by
  rcases freezeByRing_cases c t with h | h
  · exact ⟨_, _, h⟩
  · exact ⟨_, _, h⟩

/-- A header that does not map the node moves no link time (R41). -/
theorem link_of_unmapped {s t : State} {h : Header}
    (hclock : clock t.time =
      clock (scheduleFromHeader false h
        (if s.cyc.ring = .unmapped then s.time else freezeByRing .notMapped s.time))) :
    t.time.link = s.time.link ∧ t.time.linkStatus = s.time.linkStatus ∧ t.time.linkWait = s.time.linkWait := by
  obtain ⟨q, w, hfreeze⟩ := freezeByRing_frame .notMapped s.time
  obtain ⟨r', q', w', g', hschedule⟩ := scheduleFromHeader_frame false h
    (if s.cyc.ring = .unmapped then s.time else freezeByRing .notMapped s.time)
  obtain ⟨hlink, hstatus, hwait, -⟩ := counts_of_clock_eq hclock
  rw [hschedule] at hlink hstatus hwait
  rw [hlink, hstatus, hwait, hfreeze]
  dsimp only
  split_ifs <;> exact ⟨rfl, rfl, rfl⟩

/-- Settles O10: by whether the header maps the node, then by its test, and then by the side of the target. -/
theorem mappedNodeAlignsLinkTime : Obligations.MappedNodeAlignsLinkTime := by
  intro f s h htakes hparse
  by_cases hmaps : HeaderMaps h s
  case neg =>
    obtain ⟨t, hexec, hring, hclock⟩ := exec_nodeCycleFrame_unmapped htakes hparse hmaps
    refine ⟨t, hexec, ?_⟩
    rw [if_pos hring]
    exact link_of_unmapped hclock
  case pos =>
    obtain ⟨t, u, hexec, hring, hu, hclock⟩ := exec_nodeCycleFrame_mapped htakes hparse hmaps
    obtain ⟨hlink, hstatus, hwait⟩ := link_of_mapped hu hclock
    refine ⟨t, hexec, ?_⟩
    rw [if_neg (by simp [hring]), hlink, hstatus, hwait]
    by_cases hfresh : h.epoch = s.survey.surveyedEpoch ∧ h.epoch ≠ s.cyc.mappedEpoch
    · have htest : ringTest h s = .fresh := (ringTest_eq_fresh_iff h s).2 ⟨hfresh.1, hfresh.2, hmaps.1⟩
      rw [if_pos hfresh, alignedLink, if_pos htest]
      exact ⟨rfl, rfl, rfl⟩
    · have htest : ringTest h s ≠ .fresh := fun heq =>
        hfresh (((ringTest_eq_fresh_iff h s).1 heq).imp_right And.left)
      rw [if_neg hfresh, alignedLink, if_neg htest]
      exact alignLink_cases (linkTarget h (transit h (positionIn h s) f.slowHeader)) s.time

end Sys2Proof.Machine
end

section
/-! What a cycle frame with a valid header does to race time and the GO schedule at a node: the schedule's part, the
rows of R44 by the phase of the header, and the frame as a whole (R42, R44, R45, R47, R49, R50). -/

namespace Sys2Proof.Machine

open Sys2Proof Sys2Proof.Safety

/-! ## The schedule's part of a header (R44, R47) -/

/-- IDLE and GATHERING set the schedule and race time back in every ring state. -/
theorem scheduleFromHeader_over {h : Header} (mapped : Bool) (t : Timebase)
    (hphase : h.phase = .idle ∨ h.phase = .gathering) :
    scheduleFromHeader mapped h t = { t with race := 0, raceStatus := .zero, raceWait := 0, go := .none } :=
  if_pos hphase

/-- Any other header that does not map the station leaves both. -/
theorem scheduleFromHeader_unmapped {h : Header} (t : Timebase)
    (hphase : ¬ (h.phase = .idle ∨ h.phase = .gathering)) : scheduleFromHeader false h t = t :=
  if_neg hphase

/-- Any other header with the G of a FIRED schedule leaves both. -/
theorem scheduleFromHeader_fired {h : Header} {t : Timebase} (hphase : ¬ (h.phase = .idle ∨ h.phase = .gathering))
    (hgo : t.go = .fired h.goTime) : scheduleFromHeader true h t = t := by
  simp [scheduleFromHeader, hphase, otherGo, goTimeOf, hgo]

/-- A schedule that is not FIRED with the header's G is set back, unless it is NONE or ARMED with that G. -/
theorem scheduleFromHeader_unfired {h : Header} {t : Timebase} (hphase : ¬ (h.phase = .idle ∨ h.phase = .gathering))
    (hgo : t.go ≠ .fired h.goTime) :
    scheduleFromHeader true h t =
      let b := if t.go = .none ∨ t.go = .armed h.goTime then t else resetSchedule t
      if h.phase = .countdown ∧ b.go = .none then { b with go := .armed h.goTime } else b := by
  have hother : otherGo h t.go = true ↔ ¬ (t.go = .none ∨ t.go = .armed h.goTime) := by
    cases hg : t.go <;> simp_all [otherGo, goTimeOf]
  simp only [scheduleFromHeader, if_neg hphase, if_true]
  split_ifs <;> simp_all

/-- So a schedule that is not FIRED with the header's G is then NONE, or ARMED with it. -/
theorem scheduleFromHeader_go {h : Header} {t : Timebase} (hphase : ¬ (h.phase = .idle ∨ h.phase = .gathering))
    (hgo : t.go ≠ .fired h.goTime) :
    (scheduleFromHeader true h t).go = .none ∨ (scheduleFromHeader true h t).go = .armed h.goTime := by
  rw [scheduleFromHeader_unfired hphase hgo]
  dsimp only
  split_ifs with hkeep _ _
  · exact .inr rfl
  · exact hkeep
  · exact .inr rfl
  · exact .inl rfl

/-- A COUNTDOWN header arms it with its G, and race time stays or is set back with it. -/
theorem scheduleFromHeader_countdown {h : Header} {t : Timebase} (hphase : h.phase = .countdown)
    (hgo : t.go ≠ .fired h.goTime) :
    scheduleFromHeader true h t =
      if t.go = .none ∨ t.go = .armed h.goTime then { t with go := .armed h.goTime }
      else { t with race := 0, raceStatus := .zero, raceWait := 0, go := .armed h.goTime } := by
  rw [scheduleFromHeader_unfired (by simp [hphase]) hgo]
  by_cases hkeep : t.go = .none ∨ t.go = .armed h.goTime
  · rw [if_pos hkeep]
    rcases hkeep with hnone | harmed
    · simp [hphase, hnone]
    · simp [hphase, ← harmed]
  · simp [hphase, hkeep, resetSchedule, zeroRace]

/-! ## Race time set to a count (R42, R45) -/

/-- A count that is set to run does so below the top, and stands FROZEN there. -/
theorem setRaceTime_counting_status (v : Nat) (t : Timebase) :
    (setRaceTime v .counting t).raceStatus = if v < 4294967295 then .counting else .frozen .top := by
  unfold setRaceTime topMicros
  by_cases hv : v < 4294967295
  · rw [if_neg (by omega), if_pos hv]
  · rw [if_pos (by omega), if_neg hv]

/-- A count that is set while frozen keeps its cause. -/
theorem setRaceTime_frozen_status (v : Nat) (c : FreezeCause) (t : Timebase) :
    (setRaceTime v (.frozen c) t).raceStatus = .frozen c := by
  unfold setRaceTime
  split_ifs <;> rfl

/-! ## The race rows of a header at a MAPPED node (R44, R45, R49) -/

section
variable {h : Header} {target : Nat} {s : State}

/-- IDLE and GATHERING have no race rows. -/
theorem raceFromHeader_over (hphase : h.phase = .idle ∨ h.phase = .gathering) : raceFromHeader h target s = s := by
  rcases hphase with hphase | hphase <;> simp [raceFromHeader, hphase]

/-- RUNNING and CLOSING with the schedule FIRED: frozen while held, and aligned otherwise. -/
theorem raceFromHeader_running_fired {g : Micros} (hphase : h.phase = .running ∨ h.phase = .closing)
    (hgo : s.time.go = .fired g) :
    (raceFromHeader h target s).time =
      if h.held = true then freezeRace .held s.time else alignRace target s.time := by
  rcases hphase with hphase | hphase <;> simp [raceFromHeader, hphase, raceOnRunning, hgo]

/-- RUNNING and CLOSING with the schedule not FIRED: it fires late, at the header's race time. -/
theorem raceFromHeader_running_late {g : Micros} (hphase : h.phase = .running ∨ h.phase = .closing)
    (hgo : s.time.go = .none ∨ s.time.go = .armed g) :
    (raceFromHeader h target s).time =
      startPulse (setRaceTime target (if h.held = true then .frozen .held else .counting)
        { s.time with go := .fired h.goTime }) := by
  rcases hphase with hphase | hphase <;> rcases hgo with hgo | hgo <;>
    simp [raceFromHeader, hphase, raceOnRunning, hgo, fireGo_time]

/-- COUNTDOWN with the schedule FIRED: a count frozen by the ring runs again. -/
theorem raceFromHeader_countdown_fired {g : Micros} (hphase : h.phase = .countdown) (hgo : s.time.go = .fired g) :
    (raceFromHeader h target s).time = thawRace s.time := by
  simp [raceFromHeader, hphase, raceOnCountdown, hgo]

/-- COUNTDOWN with the schedule ARMED: it fires when link time has reached its G. -/
theorem raceFromHeader_countdown_armed {g : Micros} (hphase : h.phase = .countdown) (hgo : s.time.go = .armed g) :
    (raceFromHeader h target s).time =
      if 0 ≤ signedDiff s.time.link g then
        startPulse (setRaceTime (signedDiff s.time.link g).toNat .counting { s.time with go := .fired g })
      else s.time := by
  simp only [raceFromHeader, hphase, raceOnCountdown, hgo, reached, decide_eq_true_eq]
  split_ifs
  · exact fireGo_time _ _ _ _
  · rfl

/-- RESULTS with the schedule FIRED: race time freezes. -/
theorem raceFromHeader_results_fired {g : Micros} (hphase : h.phase = .results) (hgo : s.time.go = .fired g) :
    (raceFromHeader h target s).time = freezeRace .results s.time := by
  simp [raceFromHeader, hphase, raceOnResults, hgo]

/-- RESULTS with the schedule not FIRED: race time stands at the header's stamp. -/
theorem raceFromHeader_results_late {g : Micros} (hphase : h.phase = .results)
    (hgo : s.time.go = .none ∨ s.time.go = .armed g) :
    (raceFromHeader h target s).time =
      { freezeRace .results s.time with race := h.raceStamp, go := .fired h.goTime } := by
  rcases hgo with hgo | hgo <;> simp [raceFromHeader, hphase, raceOnResults, hgo]

end

/-! ## The alignment of race time (R42, R45) -/

section
variable {target : Nat} {t : Timebase}

/-- A RESULTS freeze is not aligned. -/
theorem alignRace_results (h : t.raceStatus = .frozen .results) : alignRace target t = t := if_pos h

/-- Race time at the top stays there. -/
theorem alignRace_top (h : t.raceStatus ≠ .frozen .results) (htop : t.race.toNat = 4294967295) :
    alignRace target t = { t with raceStatus := .frozen .top, raceWait := 0 } :=
  (if_neg h).trans (if_pos htop)

/-- A target behind race time lets it wait the difference. -/
theorem alignRace_behind (h : t.raceStatus ≠ .frozen .results) (hbelow : t.race.toNat < 4294967295)
    (hbehind : target < t.race.toNat) :
    alignRace target t = { t with raceStatus := .waiting, raceWait := t.race.toNat - target } := by
  unfold alignRace topMicros
  rw [if_neg h, if_neg (by omega), if_neg (by omega), if_neg (by omega)]

/-- A target at race time or ahead of it is taken at once, saturating at the top. -/
theorem alignRace_ahead (h : t.raceStatus ≠ .frozen .results) (hbelow : t.race.toNat < 4294967295)
    (hahead : ¬ target < t.race.toNat) :
    (alignRace target t).race.toNat = min 4294967295 target ∧
      (alignRace target t).raceStatus = if target < 4294967295 then .counting else .frozen .top := by
  unfold alignRace
  rw [if_neg h, if_neg (show ¬ t.race.toNat = topMicros by unfold topMicros; omega)]
  by_cases hlt : t.race.toNat < target
  · rw [if_pos hlt]
    exact ⟨setRaceTime_race _ _ _, setRaceTime_counting_status _ _⟩
  · have heq : t.race.toNat = target := by omega
    rw [if_neg hlt, if_pos heq, if_pos (by omega)]
    exact ⟨by dsimp only; omega, rfl⟩

/-- Race time below the top is aligned by the side of the target. -/
theorem alignRace_cases (target : Nat) (h : t.raceStatus ≠ .frozen .results) (hbelow : t.race.toNat < 4294967295) :
    if target < t.race.toNat then
      (alignRace target t).race = t.race ∧ (alignRace target t).raceStatus = .waiting ∧
        (alignRace target t).raceWait = t.race.toNat - target
    else
      (alignRace target t).race.toNat = min 4294967295 target ∧
        (alignRace target t).raceStatus = if target < 4294967295 then .counting else .frozen .top := by
  by_cases hbehind : target < t.race.toNat
  · rw [if_pos hbehind, alignRace_behind h hbelow hbehind]
    exact ⟨rfl, rfl, rfl⟩
  · rw [if_neg hbehind]
    exact alignRace_ahead h hbelow hbehind

end

/-! ## The frame as a whole -/

/-- The link part of a header leaves race time, the schedule and the pulse. -/
theorem alignedLink_frame (t : RingTest) (h : Header) (tr : Nat) (b : Timebase) :
    ∃ l q w, alignedLink t h tr b = { b with link := l, linkStatus := q, linkWait := w } := by
  unfold alignedLink realignLink alignLink
  dsimp only
  split_ifs <;> exact ⟨_, _, _, rfl⟩

/-- The race target of a header in µs: its race stamp, the offset of the station's position and e (R45). -/
abbrev raceAim (f : RxFrame) (h : Header) (s : State) : Nat :=
  h.raceStamp.toNat + offsetAt h.map ((positionOf h.map (address s)).getD 0) + if f.slowHeader then 26 else 25

/-- A frame whose header maps the node: its race rows act on the schedule's part `b` of the timebase, link time being
that behind the frame. -/
theorem exec_nodeCycleFrame_race {f : RxFrame} {s : State} {h : Header} (htakes : NodeTakes f s)
    (hparse : parseHeader (headerPart f.symbols) = some h) (hmaps : HeaderMaps h s) {b : Timebase}
    (hb : scheduleFromHeader true h s.time = b) :
    ∃ t u, exec (.nodeCycleFrame f) s = .next t ∧ clock t.time = clock (raceFromHeader h (raceAim f h s) u).time ∧
      t.time.link = u.time.link ∧ u.time.go = b.go ∧ u.time.race = b.race ∧ u.time.raceStatus = b.raceStatus ∧
      u.time.raceWait = b.raceWait ∧ u.time.pulse = b.pulse := by
  obtain ⟨t, u, hexec, -, hu, hclock⟩ := exec_nodeCycleFrame_mapped htakes hparse hmaps
  rw [show raceTarget h (transit h (positionIn h s) f.slowHeader) = raceAim f h s from
    (Nat.add_assoc _ _ _).symm] at hclock
  obtain ⟨r, q, w, g, p, hrace⟩ := raceFromHeader_frame h (raceAim f h s) u
  have hlink := (counts_of_clock_eq hclock).1
  rw [hrace] at hlink
  obtain ⟨l, q', w', halign⟩ := alignedLink_frame (ringTest h s) h (transit h (positionIn h s) f.slowHeader) b
  rw [hb, halign] at hu
  exact ⟨t, u, hexec, hclock, hlink, by rw [hu], by rw [hu], by rw [hu], by rw [hu], by rw [hu]⟩

end Sys2Proof.Machine
end

section
/-! A frame with a valid header and race time at a node, clause by clause (R42, R44, R45, R47, R49, R50). -/

namespace Sys2Proof.Machine

open Sys2Proof Sys2Proof.Safety

/-- A thaw, by whether the ring had frozen the count (R44). -/
theorem thawRace_eq (t : Timebase) :
    thawRace t =
      if t.raceStatus = .frozen .lost ∨ t.raceStatus = .frozen .notMapped ∨ t.raceStatus = .frozen .standby then
        { t with raceStatus := countingAt t.race, raceWait := 0 }
      else t := by
  unfold thawRace
  split <;> simp_all [resumeRace]

/-- A freeze by the ring, by the status that it finds (R42, R44). -/
theorem freezeByRing_status (c : FreezeCause) (t : Timebase) :
    (freezeByRing c t).raceStatus =
      if t.raceStatus = .zero ∨ t.raceStatus = .frozen .held ∨ t.raceStatus = .frozen .results then t.raceStatus
      else .frozen c := by
  unfold freezeByRing freezeRace
  split <;> simp_all

/-- A signed difference of link times lies below half their range. -/
theorem signedDiff_lt (a b : Micros) : signedDiff a b < 2147483648 := by
  have := BitVec.two_mul_toInt_lt (x := a - b)
  unfold signedDiff
  omega

/-- RUNNING and CLOSING are neither IDLE nor GATHERING, so their header does not set the schedule back. -/
theorem not_over_of_running {h : Header} (hphase : h.phase = .running ∨ h.phase = .closing) :
    ¬ (h.phase = .idle ∨ h.phase = .gathering) := by
  rcases hphase with hphase | hphase <;> simp [hphase]

/-- COUNTDOWN is neither IDLE nor GATHERING, so its header does not set the schedule back. -/
theorem not_over_of_countdown {h : Header} (hphase : h.phase = .countdown) :
    ¬ (h.phase = .idle ∨ h.phase = .gathering) := by simp [hphase]

/-- RESULTS is neither IDLE nor GATHERING, so its header does not set the schedule back. -/
theorem not_over_of_results {h : Header} (hphase : h.phase = .results) :
    ¬ (h.phase = .idle ∨ h.phase = .gathering) := by simp [hphase]

/-- Settles O11: the schedule's part of the header and its race rows, phase by phase; a header that does not map the
node has no race rows. -/
theorem mappedNodeAlignsRaceTime : Obligations.MappedNodeAlignsRaceTime := by
  refine ⟨fun f s h htakes hparse hmaps hphase hheld hfired => ?aligns,
    fun f s h htakes hparse hmaps hphase hgo => ?late,
    fun f s h htakes hparse hmaps hphase hheld hfired => ?held,
    fun f s h htakes hparse hphase => ?before,
    fun f s h htakes hparse hmaps hphase => ?countdown,
    fun f s h htakes hparse hmaps hphase => ?results,
    fun f s h htakes hparse hmaps hidle hgathering => ?unmapped⟩
  case aligns =>
    obtain ⟨t, u, hexec, hclock, -, hgo, hrace, hstatus, -, hpulse⟩ := exec_nodeCycleFrame_race htakes hparse hmaps
      (scheduleFromHeader_fired (not_over_of_running hphase) hfired)
    rw [raceFromHeader_running_fired hphase (hgo.trans hfired), if_neg (by simp [hheld])] at hclock
    obtain ⟨r, q, w, hframe⟩ := alignRace_frame (raceAim f h s) u.time
    obtain ⟨-, -, -, hrace', hstatus', hwait', hgo', hpulse', -⟩ := counts_of_clock_eq hclock
    refine ⟨t, hexec, by rw [hgo', hframe, ← hgo], by rw [hpulse', hframe, ← hpulse], fun hresults => ?_,
      fun hrunning htop => ?_, fun hrunning hbelow => ?_⟩
    · rw [hrace', hstatus', alignRace_results (hstatus.trans hresults)]
      exact ⟨hrace, hstatus⟩
    · rw [hrace', hstatus', alignRace_top (by rwa [hstatus]) (by rwa [hrace])]
      exact ⟨hrace, rfl⟩
    · rw [← hstatus] at hrunning
      rw [hrace', hstatus', hwait', ← hrace]
      rw [← hrace] at hbelow
      exact alignRace_cases (raceAim f h s) hrunning hbelow
  case late =>
    obtain ⟨t, u, hexec, hclock, -, hgo', -⟩ := exec_nodeCycleFrame_race htakes hparse hmaps rfl
    have hunfired := scheduleFromHeader_go (not_over_of_running hphase) hgo
    rw [← hgo'] at hunfired
    rw [raceFromHeader_running_late hphase hunfired] at hclock
    obtain ⟨r, q, hset⟩ := setRaceTime_frame (raceAim f h s) (if h.held = true then .frozen .held else .counting)
      { u.time with go := .fired h.goTime }
    obtain ⟨-, -, -, hrace, hstatus, -, hgo, hpulse, -⟩ := counts_of_clock_eq hclock
    refine ⟨t, hexec, by rw [hgo, hset]; rfl, hpulse, ?_, ?_⟩
    · rw [hrace]
      exact setRaceTime_race _ _ _
    · rw [hstatus]
      cases hheld : h.held
      · exact setRaceTime_counting_status _ _
      · exact setRaceTime_frozen_status _ _ _
  case held =>
    obtain ⟨t, u, hexec, hclock, -, hgo, hrace, -, -, hpulse⟩ := exec_nodeCycleFrame_race htakes hparse hmaps
      (scheduleFromHeader_fired (not_over_of_running hphase) hfired)
    rw [raceFromHeader_running_fired hphase (hgo.trans hfired), if_pos hheld] at hclock
    obtain ⟨-, -, -, hrace', hstatus, hwait, hgo', hpulse', -⟩ := counts_of_clock_eq hclock
    exact ⟨t, hexec, hgo'.trans hgo, hpulse'.trans hpulse, hrace'.trans hrace, hstatus, hwait⟩
  case before =>
    by_cases hmaps : HeaderMaps h s
    case pos =>
      obtain ⟨t, u, hexec, hclock, -, hgo, hrace, hstatus, hwait, hpulse⟩ :=
        exec_nodeCycleFrame_race htakes hparse hmaps (scheduleFromHeader_over true s.time hphase)
      rw [raceFromHeader_over hphase] at hclock
      obtain ⟨-, -, -, hrace', hstatus', hwait', hgo', hpulse', -⟩ := counts_of_clock_eq hclock
      exact ⟨t, hexec, hgo'.trans hgo, hrace'.trans hrace, hstatus'.trans hstatus, hwait'.trans hwait,
        hpulse'.trans hpulse⟩
    case neg =>
      obtain ⟨t, hexec, -, hclock⟩ := exec_nodeCycleFrame_unmapped htakes hparse hmaps
      obtain ⟨q, w, hfreeze⟩ := freezeByRing_frame .notMapped s.time
      rw [scheduleFromHeader_over false _ hphase, hfreeze] at hclock
      obtain ⟨-, -, -, hrace, hstatus, hwait, hgo, hpulse, -⟩ := counts_of_clock_eq hclock
      exact ⟨t, hexec, hgo, hrace, hstatus, hwait, hpulse.trans (by dsimp only; split <;> rfl)⟩
  case countdown =>
    have hbegun := not_over_of_countdown hphase
    by_cases hfired : s.time.go = .fired h.goTime
    case pos =>
      obtain ⟨t, u, hexec, hclock, -, hgo, hrace, hstatus, hwait, hpulse⟩ :=
        exec_nodeCycleFrame_race htakes hparse hmaps (scheduleFromHeader_fired hbegun hfired)
      rw [raceFromHeader_countdown_fired hphase (hgo.trans hfired), thawRace_eq, hstatus, hrace] at hclock
      refine ⟨t, hexec, ?_⟩
      rw [if_pos hfired]
      by_cases hring : s.time.raceStatus = .frozen .lost ∨ s.time.raceStatus = .frozen .notMapped ∨
          s.time.raceStatus = .frozen .standby
      case pos =>
        rw [if_pos hring] at hclock ⊢
        obtain ⟨-, -, -, hrace', hstatus', hwait', hgo', hpulse', -⟩ := counts_of_clock_eq hclock
        exact ⟨hgo'.trans hgo, hpulse'.trans hpulse, hrace', hstatus', hwait'⟩
      case neg =>
        rw [if_neg hring] at hclock ⊢
        obtain ⟨-, -, -, hrace', hstatus', hwait', hgo', hpulse', -⟩ := counts_of_clock_eq hclock
        exact ⟨hgo'.trans hgo, hpulse'.trans hpulse, hrace'.trans hrace, hstatus'.trans hstatus, hwait'.trans hwait⟩
    case neg =>
      obtain ⟨t, u, hexec, hclock, hlink, hgo, hrace, hstatus, hwait, hpulse⟩ :=
        exec_nodeCycleFrame_race htakes hparse hmaps (scheduleFromHeader_countdown hphase hfired)
      have harmed : u.time.go = .armed h.goTime := hgo.trans (by split <;> rfl)
      rw [raceFromHeader_countdown_armed hphase harmed, ← hlink] at hclock
      refine ⟨t, hexec, ?_⟩
      rw [if_neg hfired]
      by_cases hreached : 0 ≤ signedDiff t.time.link h.goTime
      case pos =>
        rw [if_pos hreached] at hclock ⊢
        obtain ⟨r, q, hset⟩ := setRaceTime_frame (signedDiff t.time.link h.goTime).toNat .counting
          { u.time with go := .fired h.goTime }
        have hsmall := signedDiff_lt t.time.link h.goTime
        obtain ⟨-, -, -, hrace', hstatus', -, hgo', hpulse', -⟩ := counts_of_clock_eq hclock
        refine ⟨by rw [hgo', hset]; rfl, hpulse', ?_, ?_⟩
        · rw [hrace']
          exact (setRaceTime_race _ _ _).trans (min_eq_right (by unfold topMicros; omega))
        · rw [hstatus']
          exact (setRaceTime_counting_status _ _).trans (if_pos (by omega))
      case neg =>
        rw [if_neg hreached] at hclock ⊢
        obtain ⟨-, -, -, hrace', hstatus', hwait', hgo', hpulse', -⟩ := counts_of_clock_eq hclock
        rw [hrace', hstatus', hwait', hrace, hstatus, hwait]
        refine ⟨hgo'.trans harmed, (hpulse'.trans hpulse).trans (by split <;> rfl), ?_⟩
        split_ifs
        · exact ⟨rfl, rfl⟩
        · exact ⟨rfl, rfl, rfl⟩
  case results =>
    have hbegun := not_over_of_results hphase
    by_cases hfired : s.time.go = .fired h.goTime
    case pos =>
      obtain ⟨t, u, hexec, hclock, -, hgo, hrace, -, -, hpulse⟩ := exec_nodeCycleFrame_race htakes hparse hmaps
        (scheduleFromHeader_fired hbegun hfired)
      rw [raceFromHeader_results_fired hphase (hgo.trans hfired)] at hclock
      obtain ⟨-, -, -, hrace', hstatus, hwait, hgo', hpulse', -⟩ := counts_of_clock_eq hclock
      exact ⟨t, hexec, hgo'.trans (hgo.trans hfired), hstatus, hwait, hpulse'.trans hpulse,
        (hrace'.trans hrace).trans (if_pos hfired).symm⟩
    case neg =>
      obtain ⟨t, u, hexec, hclock, -, hgo, -, -, -, hpulse⟩ := exec_nodeCycleFrame_race htakes hparse hmaps rfl
      have hunfired := scheduleFromHeader_go hbegun hfired
      rw [← hgo] at hunfired
      rw [raceFromHeader_results_late hphase hunfired] at hclock
      obtain ⟨r, q, w, g, hframe⟩ := scheduleFromHeader_frame true h s.time
      obtain ⟨-, -, -, hrace', hstatus, hwait, hgo', hpulse', -⟩ := counts_of_clock_eq hclock
      rw [hframe] at hpulse
      exact ⟨t, hexec, hgo', hstatus, hwait, hpulse'.trans hpulse, hrace'.trans (if_neg hfired).symm⟩
  case unmapped =>
    obtain ⟨t, hexec, -, hclock⟩ := exec_nodeCycleFrame_unmapped htakes hparse hmaps
    rw [scheduleFromHeader_unmapped _ (not_or.2 ⟨hidle, hgathering⟩)] at hclock
    obtain ⟨q, w, hfreeze⟩ := freezeByRing_frame .notMapped s.time
    obtain ⟨-, -, -, hrace, hstatus, -, hgo, hpulse, -⟩ := counts_of_clock_eq hclock
    refine ⟨t, hexec, ?_⟩
    by_cases hring : s.cyc.ring = .unmapped
    · rw [if_pos hring] at hrace hstatus hgo hpulse
      exact ⟨hgo, hrace, hpulse, hstatus.trans (if_pos (.inl hring)).symm⟩
    · rw [if_neg hring] at hrace hstatus hgo hpulse
      rw [hfreeze] at hrace hgo hpulse
      exact ⟨hgo, hrace, hpulse, by simp only [hstatus, freezeByRing_status, hring, false_or]⟩

end Sys2Proof.Machine
end

section
/-! The commands that queue messages: Poll, Clear Stations, the remote table commands and Game, by the order of R58's
tests, and the tag that the part draws for a message (chapter 04, R57, R58, R111, R112, R171, R174). -/

namespace Sys2Proof.Machine

open Sys2Proof Sys2Proof.Safety

/-! ## Tags (R57) -/

/-- The tags that the messages of an engine carry, queued and outstanding. -/
def carriedTags (e : SlotEngine) : List Nat :=
  (e.urgent ++ e.normal).map QueuedMsg.tag ++ e.outstanding.map Outstanding.tag

/-- A tag in use is carried by a message. -/
theorem mem_carriedTags_of_tagInUse {e : SlotEngine} {k : MsgKind} {t : Nat} (h : tagInUse e k t = true) :
    t ∈ carriedTags e := by
  simp only [tagInUse, Bool.or_eq_true, List.any_eq_true, Bool.and_eq_true, beq_iff_eq] at h
  obtain ⟨m, hm, -, rfl⟩ | ⟨o, ho, -, rfl⟩ := h
  · exact List.mem_append_left _ (List.mem_map_of_mem hm)
  · exact List.mem_append_right _ (List.mem_map_of_mem ho)

/-- The values of the tag counter from its present one on, each once. -/
theorem tagCandidates_nodup (c : Nat) : ((List.range 256).map fun i => (c + i) % 256).Nodup := by
  refine List.Nodup.map_on (fun i hi j hj hij => ?_) List.nodup_range
  rw [List.mem_range] at hi hj
  omega

/-- Fewer than 256 messages cannot carry all 256 tags, so the tag drawn is one that no message of the kind carries. -/
theorem tagInUse_nextTag {e : SlotEngine} (k : MsgKind)
    (h : e.urgent.length + e.normal.length + e.outstanding.length < 256) : tagInUse e k (nextTag e k) = false := by
  unfold nextTag
  cases hfind : ((List.range 256).map fun i => (e.tagCounter + i) % 256).find? fun t => !tagInUse e k t with
  | some t => simpa using List.find?_some hfind
  | none =>
    have hsub : ((List.range 256).map fun i => (e.tagCounter + i) % 256) ⊆ carriedTags e := fun t ht =>
      mem_carriedTags_of_tagInUse (by simpa using List.find?_eq_none.1 hfind t ht)
    have hle := ((tagCandidates_nodup e.tagCounter).subperm hsub).length_le
    simp only [carriedTags, List.length_map, List.length_range, List.length_append] at hle
    omega

/-! ## Urgent messages of the anchor (R58) -/

/-- The state in which an urgent message that the part tags has joined the tail of its queue (R57, R58). -/
def queuedUrgent (k : MsgKind) (dest : Nat) (payload : List Byte) (seat : Nat) (s : State) : State :=
  { s with
    slots := { s.slots with
      urgent := s.slots.urgent ++
        [{ kind := k, cls := .urgent, dest := dest, tag := nextTag s.slots k, payload := payload,
           order := s.slots.arrival, seat := seat }],
      arrival := s.slots.arrival + 1, tagCounter := (nextTag s.slots k + 1) % 256 } }

/-- A message posted urgent joins its queue, and the reply TAKEN carries its tag. -/
theorem postUrgent_eq (k : MsgKind) (dest : Nat) (payload : List Byte) (seat : Nat) (s : State) :
    postUrgent k dest payload seat s = (queuedUrgent k dest payload seat s, .taken (.tag (nextTag s.slots k))) := rfl

/-- The room test behind tests that pass: QUEUE FULL, or none. -/
theorem firstRefusal_roomTest {pre : List (Bool × RefusalReason)} (hpre : firstRefusal pre = none) (cls : MsgClass)
    (s : State) :
    firstRefusal (pre ++ roomTest cls s) = if queueRoom s.slots cls = true then none else some .queueFull := by
  simp [firstRefusal_append, hpre, roomTest]

section
variable {s : State} {pre : State → List (Bool × RefusalReason)}

/-- An urgent message whose tests pass is queued when the urgent queue has room. -/
theorem takeCommand_queued (c : Cmd) (k : MsgKind) (dest : Nat) (payload : List Byte) (htake : canTake s = true)
    (hpre : firstRefusal (pre (dropFrame s)) = none) (hroom : s.slots.urgent.length < 4) :
    takeCommand c (fun s => tested (pre s ++ roomTest .urgent s) (postUrgent k dest payload 0) s) s =
      giveReply (.command c) (.taken (.tag (nextTag s.slots k))) (queuedUrgent k dest payload 0 (dropFrame s)) := by
  have hpass : firstRefusal (pre (dropFrame s) ++ roomTest .urgent (dropFrame s)) = none := by
    rw [firstRefusal_roomTest hpre]
    simp [queueRoom, hroom]
  exact takeCommand_passed c (fun _ => postUrgent k dest payload 0) s htake hpass

/-- An urgent message whose tests pass is QUEUE FULL when the urgent queue has no room. -/
theorem takeCommand_queueFull (c : Cmd) (act : State → State × ReplyBody) (htake : canTake s = true)
    (hpre : firstRefusal (pre (dropFrame s)) = none) (hfull : 4 ≤ s.slots.urgent.length) :
    takeCommand c (fun s => tested (pre s ++ roomTest .urgent s) act s) s =
      giveReply (.command c) (.refused .queueFull) (dropFrame s) := by
  refine takeCommand_refused c (fun _ => act) s htake ?_
  rw [firstRefusal_roomTest hpre]
  simp [queueRoom, hfull]

/-- A test before the room test refuses the command. -/
theorem takeCommand_refusedBefore (c : Cmd) {r : RefusalReason} (act : State → State × ReplyBody)
    (htake : canTake s = true) (hpre : firstRefusal (pre (dropFrame s)) = some r) :
    takeCommand c (fun s => tested (pre s ++ roomTest .urgent s) act s) s =
      giveReply (.command c) (.refused r) (dropFrame s) := by
  refine takeCommand_refused c (fun _ => act) s htake ?_
  simp [firstRefusal_append, hpre]

end

/-! ## The tests of Poll and the remote table commands (R58, R111, R174) -/

/-- The station's own address is SELF, and an address above 14 MALFORMED. -/
theorem firstRefusal_unicast (a : Nat) (s : State) :
    firstRefusal (unicastTests a s) =
      if a = address s then some .self else if a ≤ 14 then none else some .malformed := by
  by_cases h : a = address s <;> simp [unicastTests, h]

/-- A table is one that a table command may name. -/
theorem tableKnown_iff (t : TableName) :
    tableKnown t = true ↔ t = .settings ∨ t = .raceSetup ∨ t = .grid := by
  cases t <;> simp [tableKnown]

theorem countIn_iff (n size : Nat) : countIn n size = true ↔ 1 ≤ n ∧ n ≤ size := by simp [countIn]

section
variable {s : State} {a : Nat}

/-- Poll at an acting anchor, before the room for it. -/
theorem firstRefusal_poll (ha : actingAnchor s = true) :
    firstRefusal (anchorTests true s ++ unicastTests a s) =
      if a = address s then some .self else if a ≤ 14 then none else some .malformed := by
  rw [firstRefusal_anchorTests_append ha, firstRefusal_unicast]

/-- A remote table command to another station at an acting anchor, before the room for it. -/
theorem firstRefusal_remote (ha : actingAnchor s = true) (table : TableName) (n size : Nat) :
    firstRefusal (anchorTests true s ++ unicastTests a s ++ [(tableKnown table && countIn n size, .malformed)]) =
      if a = address s then some .self
      else if a ≤ 14 ∧ tableKnown table = true ∧ countIn n size = true then none else some .malformed := by
  rw [firstRefusal_append, firstRefusal_poll ha]
  by_cases hself : a = address s
  · simp [hself]
  · by_cases hrange : a ≤ 14
    · by_cases hknown : tableKnown table = true
      · by_cases hcount : countIn n size = true <;> simp [hself, hrange, hknown, hcount]
      · simp [hself, hrange, hknown]
    · simp [hself, hrange]

end

/-! ## The tests of a command that a seat or a game board posts with (R58, R96, R105, R152, R171) -/

section
variable {s : State}

/-- At a configured station that may post, such a command is judged by its tests behind the first three. -/
theorem firstRefusal_posterTests_append (hc : configured s = true) (hrole : role s ≠ .observer)
    (hring : s.cyc.ring ≠ .deferred) (l : List (Bool × RefusalReason)) :
    firstRefusal (posterTests true s ++ l) = firstRefusal l := by
  simp [posterTests, baseTests, hc, hrole, hring]

/-- An OBSERVER and an anchor in DEFERRED refuse such a command with ROLE, whatever its further tests. -/
theorem firstRefusal_posterTests_role (hc : configured s = true) (h : role s = .observer ∨ s.cyc.ring = .deferred)
    (l : List (Bool × RefusalReason)) : firstRefusal (posterTests true s ++ l) = some .role := by
  rcases h with h | h <;> simp [posterTests, baseTests, hc, h]

/-- The tests of Game at a station that may post, behind those that every poster has (R171). -/
theorem firstRefusal_game (hc : configured s = true) (hrole : role s ≠ .observer) (hring : s.cyc.ring ≠ .deferred)
    (dest : Nat) (cls : Option MsgClass) (tag : Nat) (p : List Byte) :
    firstRefusal (gameTests true dest cls tag p s) =
      if dest = address s then some .self
      else if 15 < dest ∨ 24 < p.length ∨ cls = none then some .malformed
      else if ringReady s = false then some .notMapped
      else if tagInUse s.slots .game tag = true then some .busy
      else if queueRoom s.slots (gameClass cls) = true then none else some .queueFull := by
  rw [gameTests, List.append_assoc, firstRefusal_posterTests_append hc hrole hring]
  by_cases hself : dest = address s
  · simp [hself]
  by_cases hbad : 15 < dest ∨ 24 < p.length ∨ cls = none
  · have hbad' : ¬ ((dest ≤ 15 ∧ p.length ≤ 24) ∧ cls.isSome = true) := by
      rw [Option.isSome_iff_ne_none]
      rintro ⟨⟨hdest, hlength⟩, hcls⟩
      exact hbad.elim hdest.not_gt fun h => h.elim hlength.not_gt hcls
    simp [hself, hbad, hbad']
  have hgood : (dest ≤ 15 ∧ p.length ≤ 24) ∧ cls.isSome = true := by
    push Not at hbad
    exact ⟨⟨hbad.1, hbad.2.1⟩, Option.isSome_iff_ne_none.2 hbad.2.2⟩
  by_cases hready : ringReady s = true <;> by_cases htag : tagInUse s.slots .game tag = true <;>
    simp [hself, hbad, hgood, hready, htag, roomTest]

/-- A Game that fails a test is refused with the reason of the first. -/
theorem refused_game {r : RefusalReason} {dest : Nat} {cls : Option MsgClass} {tag : Nat} {p : List Byte}
    (htake : canTake s = true) (h : firstRefusal (gameTests true dest cls tag p s) = some r) :
    Refused .game (.game true dest cls tag p) r s :=
  congrArg Host.Outcome.next (takeCommand_refused .game (tests := gameTests true dest cls tag p) _ s htake h)

end

/-- Settles O47: the tag by counting, and each command by the first of its tests that fails. -/
theorem messagesJoinTheirQueue : Obligations.MessagesJoinTheirQueue := by
  refine ⟨fun e k h => tagInUse_nextTag k h, ?queued, ?refused, ?posters, ?game⟩
  case queued =>
    rintro s ⟨htake, hact⟩ hroom posted
    refine ⟨fun a ha hself => ⟨?poll, fun table start values hknown hlo hhi => ?write,
      fun table start count hknown hlo hhi => ?read⟩, fun hidle => ?clear⟩
    case poll =>
      have hpre := (firstRefusal_poll (s := dropFrame s) (a := a) hact).trans ((if_neg hself).trans (if_pos ha))
      exact congrArg Host.Outcome.next (takeCommand_queued .poll .poll a [] htake hpre hroom)
    case write =>
      have hpass := And.intro ha
        (And.intro ((tableKnown_iff table).2 hknown) ((countIn_iff values.length 10).2 ⟨hlo, hhi⟩))
      have hpre := (firstRefusal_remote (s := dropFrame s) hact table values.length 10).trans
        ((if_neg hself).trans (if_pos hpass))
      exact congrArg Host.Outcome.next
        (takeCommand_queued .remoteTableWrite .tableWrite a (tableWritePayload table start values) htake hpre hroom)
    case read =>
      have hpass := And.intro ha (And.intro ((tableKnown_iff table).2 hknown) ((countIn_iff count 20).2 ⟨hlo, hhi⟩))
      have hpre := (firstRefusal_remote (s := dropFrame s) hact table count 20).trans
        ((if_neg hself).trans (if_pos hpass))
      exact congrArg Host.Outcome.next
        (takeCommand_queued .remoteTableRead .tableRead a (tableReadPayload table start count) htake hpre hroom)
    case clear =>
      have hpre := firstRefusal_phaseIn (s := dropFrame s) hact (show s.race.phase ∈ [Phase.idle] by simpa using hidle)
      exact congrArg Host.Outcome.next (takeCommand_queued .clearStations .clearStations 15 [] htake hpre hroom)
  case refused =>
    rintro s ⟨htake, hact⟩ refused known
    have hpoll (a : Nat) := firstRefusal_poll (s := dropFrame s) (a := a) hact
    have hremote (a : Nat) (table : TableName) (n size : Nat) :=
      firstRefusal_remote (s := dropFrame s) (a := a) hact table n size
    have hrefused {a : Nat} {r : RefusalReason} (hp : firstRefusal (anchorTests true (dropFrame s) ++
        unicastTests a (dropFrame s)) = some r) : refused a r := by
      have hr (table : TableName) (n size : Nat) : firstRefusal (anchorTests true (dropFrame s) ++
          unicastTests a (dropFrame s) ++ [(tableKnown table && countIn n size, .malformed)]) = some r := by
        rw [firstRefusal_append, hp]; rfl
      exact ⟨congrArg _ (takeCommand_refusedBefore .poll _ htake hp),
        fun table start values => congrArg _ (takeCommand_refusedBefore .remoteTableWrite _ htake (hr table _ 10)),
        fun table start count => congrArg _ (takeCommand_refusedBefore .remoteTableRead _ htake (hr table _ 20))⟩
    have known_iff {table : TableName} : tableKnown table = true ↔ known table := tableKnown_iff table
    have hbad {a : Nat} (hself : a ≠ address s) {table : TableName} {n size : Nat}
        (h : ¬ known table ∨ n < 1 ∨ size < n) := (hremote a table n size).trans ((if_neg hself).trans
          (if_neg fun hp => h.elim (absurd (known_iff.1 hp.2.1)) fun h => by
            have hc := (countIn_iff n size).1 hp.2.2
            omega))
    refine ⟨hrefused ((hpoll _).trans (if_pos rfl)),
      fun a ha hself => hrefused ((hpoll _).trans ((if_neg hself).trans (if_neg ha.not_ge))),
      fun a ha hself => ⟨fun table start values h => ?badWrite, fun table start count h => ?badRead,
        fun hfull => ⟨?fullPoll, fun hidle => ?fullClear, fun table start values hknown hlo hhi => ?fullWrite,
          fun table start count hknown hlo hhi => ?fullRead⟩⟩⟩
    case badWrite => exact congrArg _ (takeCommand_refusedBefore .remoteTableWrite _ htake (hbad hself h))
    case badRead => exact congrArg _ (takeCommand_refusedBefore .remoteTableRead _ htake (hbad hself h))
    case fullPoll =>
      have hpre := (hpoll a).trans ((if_neg hself).trans (if_pos ha))
      exact congrArg _ (takeCommand_queueFull .poll _ htake hpre hfull)
    case fullClear =>
      have hpre := firstRefusal_phaseIn (s := dropFrame s) hact (show s.race.phase ∈ [Phase.idle] by simpa using hidle)
      exact congrArg _ (takeCommand_queueFull .clearStations _ htake hpre hfull)
    case fullWrite =>
      have hpre := (hremote a table values.length 10).trans ((if_neg hself).trans
        (if_pos ⟨ha, known_iff.2 hknown, (countIn_iff _ _).2 ⟨hlo, hhi⟩⟩))
      exact congrArg _ (takeCommand_queueFull .remoteTableWrite _ htake hpre hfull)
    case fullRead =>
      have hpre := (hremote a table count 20).trans ((if_neg hself).trans
        (if_pos ⟨ha, known_iff.2 hknown, (countIn_iff _ _).2 ⟨hlo, hhi⟩⟩))
      exact congrArg _ (takeCommand_queueFull .remoteTableRead _ htake hpre hfull)
  case posters =>
    rintro s ⟨htake, hc⟩
    refine ⟨fun h => ?role, fun hrole hring dest cls tag p => ⟨fun hself => ?self, fun hself hbad => ?bad⟩⟩
    case role =>
      have htests := firstRefusal_posterTests_role (s := dropFrame s) hc h
      refine ⟨fun dest cls tag p => refused_game htake ?_, fun seat w => ?_, fun seat => ?_,
        fun ch peer total optEnd optEach => ?_⟩
      · rw [gameTests, List.append_assoc]
        exact htests _
      · exact congrArg _ (takeCommand_refused .join _ s htake (htests _))
      · exact congrArg _ (takeCommand_refused .leave _ s htake (htests _))
      · exact congrArg _ (takeCommand_refused .bulkOpen _ s htake (htests _))
    case self =>
      exact refused_game htake ((firstRefusal_game (s := dropFrame s) hc hrole hring _ _ _ _).trans (if_pos hself))
    case bad =>
      exact refused_game htake ((firstRefusal_game (s := dropFrame s) hc hrole hring _ _ _ _).trans
        ((if_neg hself).trans (if_pos hbad)))
  case game =>
    rintro s dest tag p ⟨htake, hc⟩ hrole hring hdest hself hlength
    have hgood (cls : MsgClass) : ¬ (15 < dest ∨ 24 < p.length ∨ some cls = none) := by
      simp [hdest.not_gt, hlength.not_gt]
    have htests (cls : MsgClass) := (firstRefusal_game (s := dropFrame s) hc hrole hring dest (some cls) tag p).trans
      ((if_neg hself).trans (if_neg (hgood cls)))
    refine ⟨fun hready cls => refused_game htake ((htests cls).trans (if_pos hready)), fun hready => ?ready⟩
    have hnot : ¬ ringReady (dropFrame s) = false := by
      rw [show ringReady (dropFrame s) = true from hready]; simp
    have hready' (cls : MsgClass) := (htests cls).trans (if_neg hnot)
    refine ⟨fun hbusy cls => refused_game htake ((hready' cls).trans (if_pos hbusy)), fun hfree => ?free⟩
    intro m
    have hbusy : ¬ tagInUse (dropFrame s).slots .game tag = true := by simp [hfree]
    have hroom (cls : MsgClass) := (hready' cls).trans (if_neg hbusy)
    have htaken (cls : MsgClass) (h : queueRoom s.slots cls = true) :
        exec (.game true dest (some cls) tag p) s =
          .next (giveReply (.command .game) (.taken (.tag tag))
            ((dropFrame s).withSlots (enqueue .game cls dest tag p 0 s.slots))) :=
      congrArg Host.Outcome.next (takeCommand_passed .game (tests := gameTests true dest (some cls) tag p)
        (fun _ s => (s.withSlots (enqueue .game cls dest tag p 0 s.slots), .taken (.tag tag))) s htake
        ((hroom cls).trans (if_pos h)))
    have hfull (cls : MsgClass) (h : ¬ queueRoom s.slots cls = true) :=
      refused_game htake ((hroom cls).trans (if_neg h))
    exact ⟨fun h => htaken .urgent (by simp [queueRoom, h]), fun h => htaken .normal (by simp [queueRoom, h]),
      fun h => hfull .urgent (by simp [queueRoom, h]), fun h => hfull .normal (by simp [queueRoom, h])⟩

end Sys2Proof.Machine
end

section
/-! The report FIFO as the cabinet reads it: read strobes, the placing of what waits for room, and the bytes of a
report frame (chapter 11, R74, R164, R166, R167, R176). -/

namespace Sys2Proof.Machine

open Sys2Proof Sys2Proof.Safety

/-! ## Room in the report FIFO (R166) -/

theorem roomFor_of_le {s : State} {r : Report} (h : reportSize r ≤ reportFree s) : roomFor s r = true :=
  decide_eq_true h

theorem roomFor_of_lt {s : State} {r : Report} (h : reportFree s < reportSize r) : roomFor s r = false :=
  decide_eq_false h.not_ge

/-! ## The bytes of a report frame (R166, R176) -/

@[simp] theorem length_padTo (n : Nat) (b : List Byte) : (padTo n b).length = n := by simp [padTo]

/-- Contents that fill their frame stand in it unchanged. -/
theorem padTo_of_length {n : Nat} {b : List Byte} (h : b.length = n) : padTo n b = b := by
  subst h
  simp [padTo]

/-- Every report frame holds at least its length byte and its kind. -/
theorem two_le_reportSize (r : Report) : 2 ≤ reportSize r := by
  cases r with
  | reply re body => cases body <;> simp [reportSize] <;> omega
  | _ => simp [reportSize]

/-- A report frame is its length byte, its kind and its contents; the Field Bundle has a layout of its own. -/
theorem reportFrame_eq {r : Report} (h : ∀ b, r ≠ .bundle b) :
    reportFrame r = BitVec.ofNat 8 (reportSize r - 1) :: Config.reportKindCode (reportKind r) ::
      padTo (reportSize r - 2) (reportContents r) := by
  cases r with
  | bundle b => exact absurd rfl (h b)
  | _ => rfl

/-- A 16-bit value, the high byte first. -/
theorem beBytes_two (v : Half) : beBytes 2 v.toNat = [v.extractLsb' 8 8, v.extractLsb' 0 8] := by
  have hhigh : BitVec.ofNat 8 (v.toNat / 256) = v.extractLsb' 8 8 := by
    simp [BitVec.extractLsb', Nat.shiftRight_eq_div_pow]
  have hlow : BitVec.ofNat 8 v.toNat = v.extractLsb' 0 8 := by simp [BitVec.extractLsb']
  simp [beBytes, hhigh, hlow]

/-! ## The outcome that has waited longest (R74) -/

theorem pendingOutcome_eq_some {o : Outstanding} {n : Nat} {out : MsgOutcome} :
    pendingOutcome o = some (n, out) ↔ o.progress = .reportPending out n := by
  unfold pendingOutcome
  split
  · next h => simp [h]
  · next h => simp [h, and_comm]

/-- Without a REPORT PENDING entry none is first. -/
theorem firstPending_eq_none {l : List Outstanding} (h : firstPending l = none) :
    ∀ o ∈ l, ∀ out n, o.progress ≠ .reportPending out n := by
  induction l with
  | nil => simp
  | cons x l ih =>
    unfold firstPending at h
    split at h
    · next hx =>
      intro o ho out n hpending
      obtain rfl | ho := List.mem_cons.1 ho
      · exact absurd (hx.symm.trans (pendingOutcome_eq_some.2 hpending)) (by simp)
      · exact ih h o ho out n hpending
    · cases h
    · split at h <;> cases h

/-- The first REPORT PENDING entry is one of the table's, and none other's outcome was taken before. -/
theorem firstPending_spec {l : List Outstanding} {x : Outstanding} {k : Nat} {out : MsgOutcome}
    (h : firstPending l = some (x, k, out)) :
    x ∈ l ∧ x.progress = .reportPending out k ∧
      ∀ o ∈ l, ∀ out' n, o.progress = .reportPending out' n → k ≤ n := by
  induction l generalizing x k out with
  | nil => cases h
  | cons y l ih =>
    unfold firstPending at h
    split at h
    · next hy =>
      obtain ⟨hmem, hx, hleast⟩ := ih h
      refine ⟨List.mem_cons_of_mem _ hmem, hx, fun o ho out' n ho' => ?_⟩
      obtain rfl | ho := List.mem_cons.1 ho
      · exact absurd (hy.symm.trans (pendingOutcome_eq_some.2 ho')) (by simp)
      · exact hleast o ho out' n ho'
    · next p hy hnone =>
      obtain ⟨rfl, rfl⟩ : y = x ∧ p = (k, out) := by simpa using h
      refine ⟨List.mem_cons_self, pendingOutcome_eq_some.1 hy, fun o ho out' n ho' => ?_⟩
      obtain rfl | ho := List.mem_cons.1 ho
      · have := hy.symm.trans (pendingOutcome_eq_some.2 ho')
        simp_all
      · exact absurd ho' (firstPending_eq_none hnone o ho out' n)
    · next p q hy hq =>
      obtain ⟨z, j, out₁⟩ := q
      obtain ⟨hmem, hz, hleast⟩ := ih hq
      split at h
      · next hlt =>
        obtain ⟨rfl, rfl, rfl⟩ : z = x ∧ j = k ∧ out₁ = out := by simpa using h
        refine ⟨List.mem_cons_of_mem _ hmem, hz, fun o ho out' n ho' => ?_⟩
        obtain rfl | ho := List.mem_cons.1 ho
        · have := hy.symm.trans (pendingOutcome_eq_some.2 ho')
          obtain rfl : p = (n, out') := by simpa using this
          exact hlt.le
        · exact hleast o ho out' n ho'
      · next hlt =>
        obtain ⟨rfl, rfl⟩ : y = x ∧ p = (k, out) := by simpa using h
        refine ⟨List.mem_cons_self, pendingOutcome_eq_some.1 hy, fun o ho out' n ho' => ?_⟩
        obtain rfl | ho := List.mem_cons.1 ho
        · have := hy.symm.trans (pendingOutcome_eq_some.2 ho')
          simp_all
        · exact (not_lt.1 hlt).trans (hleast o ho out' n ho')

/-- An entry whose outcome was taken before every other's is the first. -/
theorem firstPending_eq_some {l : List Outstanding} {o : Outstanding} {out : MsgOutcome} {n : Nat} (hmem : o ∈ l)
    (ho : o.progress = .reportPending out n)
    (hfirst : ∀ p ∈ l, ∀ q m, p.progress = .reportPending q m → p ≠ o → n < m) :
    firstPending l = some (o, n, out) := by
  cases h : firstPending l with
  | none => exact absurd ho (firstPending_eq_none h o hmem out n)
  | some p =>
    obtain ⟨x, k, out'⟩ := p
    obtain ⟨hx, hxo, hleast⟩ := firstPending_spec h
    obtain rfl : x = o := by
      by_contra hne
      exact (hfirst x hx out' k hxo hne).not_ge (hleast o hmem out n ho)
    simpa [and_comm, eq_comm] using hxo.symm.trans ho

/-- Settles O30, event by event; the frame's bytes by its layout. -/
theorem reportsAreReadAndPlaced : Obligations.ReportsAreReadAndPlaced := by
  refine ⟨fun s => ⟨fun h => ?empty, fun r rest h => ⟨fun hmore => ?more, fun hlast => ?last⟩⟩,
    fun s => ⟨fun r h => ⟨fun hroom => ?reply, fun hroom => ?replyWaits⟩,
      fun h => ⟨fun hroom => ?notice, fun hroom => ?noticeWaits⟩, fun h => ?noNotice⟩,
    fun r h => ?layout, fun g link race late => ?go, fun result set cleared => ?roll,
    fun s o out n hmem ho hfirst => ?pending⟩
  case empty =>
    change execReportByteRead s = _
    rw [execReportByteRead, h]; rfl
  case more =>
    change execReportByteRead s = _
    rw [execReportByteRead, h]
    simp [readByte, State.withPort, hmore.not_ge]
  case last =>
    change execReportByteRead s = _
    rw [execReportByteRead, h]
    simp [readByte, State.withPort, hlast, h]
  case reply =>
    change execReplyPlaced s = _
    rw [execReplyPlaced, h]
    exact if_pos (roomFor_of_le hroom)
  case replyWaits =>
    change execReplyPlaced s = _
    rw [execReplyPlaced, h]
    simp [roomFor_of_lt hroom]
  case notice =>
    change execNoticePlaced s = _
    rw [execNoticePlaced, if_neg (by simpa using h), if_pos (roomFor_of_le hroom)]
    rfl
  case noticeWaits =>
    change execNoticePlaced s = _
    simp [execNoticePlaced, h, roomFor_of_lt hroom]
  case noNotice =>
    change execNoticePlaced s = _
    simp [execNoticePlaced, h]
  case layout =>
    have hsize := two_le_reportSize r
    rw [reportByteAt, reportByteAt, reportFrame_eq h]
    refine ⟨?_, rfl, rfl⟩
    simp only [List.length_cons, length_padTo]
    omega
  case go =>
    exact padTo_of_length (by simp [reportContents, timeBytes, reportSize])
  case roll =>
    refine (padTo_of_length (by simp [reportContents, reportSize])).trans ?_
    simp [reportContents, beBytes_two]
  case pending =>
    have hpending := firstPending_eq_some hmem ho hfirst
    change (_ → execReportPendingPlaced s = _) ∧ (_ → execReportPendingPlaced s = _)
    simp only [execReportPendingPlaced, hpending]
    exact ⟨fun hroom => if_pos (roomFor_of_le hroom),
      fun hroom => if_neg (by simp [outcomeOfEntry, roomFor_of_lt hroom])⟩

end Sys2Proof.Machine
end

section
/-! Remote table messages at their destination: the payloads of TABLE WRITE and TABLE READ as they are read, and the
settings unit's answers (chapter 11, R172 to R175). -/

namespace Sys2Proof.Machine

open Sys2Proof Sys2Proof.Safety

/-! ## The payloads of the table messages (notes/assumptions/17.md) -/

section
variable (t : TableName) {start : Nat} (values : List Nat) (count : Nat)

/-- The head of a TABLE WRITE payload: table, start index and count, behind which the values stand. -/
theorem tableWritePayload_eq :
    tableWritePayload t start values =
      BitVec.ofNat 8 (tableCode t) :: BitVec.ofNat 8 start :: BitVec.ofNat 8 values.length ::
        values.flatMap (beBytes 2) := by
  simp [tableWritePayload, beBytes]

theorem tableReadPayload_eq :
    tableReadPayload t start count =
      [BitVec.ofNat 8 (tableCode t), BitVec.ofNat 8 start, BitVec.ofNat 8 count] := by
  simp [tableReadPayload, beBytes]

end

/-- The bytes of 16-bit values: two for each. -/
theorem length_flatMap_beBytes (values : List Nat) : (values.flatMap (beBytes 2)).length = 2 * values.length := by
  induction values with
  | nil => rfl
  | cons v values ih => simp [ih]; omega

/-- The bytes of a 16-bit value in a run of such values stand at twice its place. -/
theorem take_drop_flatMap_beBytes {values : List Nat} {k : Nat} (h : k < values.length) :
    ((values.flatMap (beBytes 2)).drop (2 * k)).take 2 = beBytes 2 values[k] := by
  induction values generalizing k with
  | nil => simp at h
  | cons v values ih =>
    cases k with
    | zero => exact List.take_left' (length_beBytes 2 v)
    | succ k =>
      have hdrop : ((v :: values).flatMap (beBytes 2)).drop (2 * (k + 1)) =
          (values.flatMap (beBytes 2)).drop (2 * k) := by
        rw [List.flatMap_cons, show 2 * (k + 1) = (beBytes 2 v).length + 2 * k by rw [length_beBytes]; omega,
          List.drop_append]
        simp
      rw [hdrop, ih (by simpa using h), List.getElem_cons_succ]

/-- The values of a TABLE WRITE payload are those that were written into it. -/
theorem payloadValues_tableWritePayload (t : TableName) (start : Nat) {values : List Nat}
    (h : ∀ v ∈ values, v < 65536) : payloadValues (tableWritePayload t start values) values.length = values := by
  refine List.ext_getElem (by simp [payloadValues]) fun k hk hk' => ?_
  have hbytes : ((tableWritePayload t start values).drop (3 + 2 * k)).take 2 = beBytes 2 values[k] := by
    rw [tableWritePayload_eq, show 3 + 2 * k = 2 * k + 3 by omega]
    exact take_drop_flatMap_beBytes hk'
  simp only [payloadValues, List.getElem_map, List.getElem_range, numAt, hbytes, beNat_beBytes]
  exact Nat.mod_eq_of_lt (h _ (List.getElem_mem hk'))

/-! ## Places that are not read-only (R172, R173) -/

/-- The writable places from a start index, in the order in which they are written. -/
theorem writablePlaces_eq (start n : Nat) :
    writablePlaces start n = (((List.range 20).map fun k => (start + k) % 20).filter fun i => i < 12).take n := by
  unfold writablePlaces wrapPlaces readOnly
  congr 1
  have hopen : (fun i => !decide (12 ≤ i)) = fun i => decide (i < 12) :=
    funext fun i => decide_not.symm.trans (decide_eq_decide.2 Nat.not_le)
  rw [hopen]
  congr 2
  funext k
  omega

/-- Twelve of the twenty places are writable, wherever the count starts. -/
theorem length_writable (start : Nat) :
    (((List.range 20).map fun k => (start + k) % 20).filter fun i => i < 12).length = 12 := by
  have hstart : (List.range 20).map (fun k => (start + k) % 20) = (List.range 20).map fun k => (start % 20 + k) % 20 :=
    List.map_congr_left fun k _ => by omega
  rw [hstart]
  have : ∀ a < 20, (((List.range 20).map fun k => (a + k) % 20).filter fun i => i < 12).length = 12 := by decide
  exact this _ (Nat.mod_lt _ (by omega))

/-- No place is written twice. -/
theorem writablePlaces_nodup (start n : Nat) : (writablePlaces start n).Nodup := by
  refine List.Nodup.sublist (List.take_sublist _ _) (List.Nodup.filter _ (List.Nodup.map_on ?_ List.nodup_range))
  intro i hi j hj hij
  rw [List.mem_range] at hi hj
  omega

theorem length_writablePlaces {start n : Nat} (h : n ≤ 12) : (writablePlaces start n).length = n := by
  rw [writablePlaces_eq, List.length_take, length_writable]
  omega

theorem writablePlaces_lt {start n i : Nat} (h : i ∈ writablePlaces start n) : i < 12 := by
  rw [writablePlaces_eq] at h
  simpa using (List.mem_filter.1 (List.mem_of_mem_take h)).2

/-- A write at distinct places of a table stores each value, clamped into the range of its entry. -/
theorem writeAt_getD {range : Nat → Nat × Nat} {places values : List Nat} {table : List Nat} (hnodup : places.Nodup)
    (hlen : places.length = values.length) (hlt : ∀ i ∈ places, i < table.length) {k : Nat} (hk : k < values.length) :
    (writeAt range table (places.zip values)).getD (places.getD k 0) 0 =
      clamp (range (places.getD k 0)).1 (range (places.getD k 0)).2 (values.getD k 0) := by
  induction places generalizing values table k with
  | nil => simp at hlen; omega
  | cons i places ih =>
    cases values with
    | nil => simp at hk
    | cons v values =>
      have hfresh : i ∉ places := (List.nodup_cons.1 hnodup).1
      have hi : i < table.length := hlt i List.mem_cons_self
      cases k with
      | zero =>
        simp only [List.zip_cons_cons, writeAt, List.getD_cons_zero]
        rw [writeAt_other]
        · simp [List.getD_eq_getElem?_getD, hi]
        · rintro ⟨j, w⟩ hp rfl
          exact hfresh (List.of_mem_zip hp).1
      | succ k =>
        simp only [List.zip_cons_cons, writeAt, List.getD_cons_succ]
        exact ih (List.nodup_cons.1 hnodup).2 (by simpa using hlen)
          (fun j hj => by simpa using hlt j (List.mem_cons_of_mem _ hj)) (by simpa using hk)

/-! ## The answers of the settings unit (R174) -/

theorem fromAnchor_other {m : SlotMsg} {s : State} (serve : State → State × Option MsgOutcome)
    (h : mirrorAnchor s ≠ some m.source) : fromAnchor m serve s = (s, some (.declined .undeliverable)) := if_neg h

theorem fromAnchor_anchor {m : SlotMsg} {s : State} (serve : State → State × Option MsgOutcome)
    (h : mirrorAnchor s = some m.source) : fromAnchor m serve s = serve s := if_pos h

theorem serveSlot_tableWrite {m : SlotMsg} (h : m.kind = .tableWrite) (s : State) :
    serveSlot m s = fromAnchor m (serveTableWrite m.body) s := by simp [serveSlot, h]

theorem serveSlot_tableRead {m : SlotMsg} (h : m.kind = .tableRead) (s : State) :
    serveSlot m s = fromAnchor m (serveTableRead m.body) s := by simp [serveSlot, h]

theorem tableOf_unknown {c : Nat} (h : 2 < c) : tableOf c = .unknown c :=
  match c, h with
  | _ + 3, _ => rfl

section
variable {p : List Byte} {s : State}

theorem serveTableWrite_local (h : byteAt p 0 = 1 ∨ byteAt p 0 = 2) :
    serveTableWrite p s = (s, some (.declined .localOnly)) := by
  rcases h with h | h <;> simp [serveTableWrite, h, tableOf]

theorem serveTableRead_local (h : byteAt p 0 = 1 ∨ byteAt p 0 = 2) :
    serveTableRead p s = (s, some (.declined .localOnly)) := by
  rcases h with h | h <;> simp [serveTableRead, h, tableOf]

theorem serveTableWrite_unknown (h : 2 < byteAt p 0) : serveTableWrite p s = (s, some (.declined .noEntry)) := by
  simp [serveTableWrite, tableOf_unknown h]

theorem serveTableRead_unknown (h : 2 < byteAt p 0) : serveTableRead p s = (s, some (.declined .noEntry)) := by
  simp [serveTableRead, tableOf_unknown h]

/-- A write of the settings whose count is out of range, or whose length is not the one that its count tells. -/
theorem serveTableWrite_misfit (h : byteAt p 0 = 0)
    (hbad : byteAt p 2 < 1 ∨ 10 < byteAt p 2 ∨ p.length ≠ 3 + 2 * byteAt p 2) :
    serveTableWrite p s = (s, some (.declined .noEntry)) := by
  simp only [serveTableWrite, h, tableOf]
  exact if_pos hbad

theorem serveTableRead_misfit (h : byteAt p 0 = 0) (hbad : byteAt p 2 < 1 ∨ 20 < byteAt p 2) :
    serveTableRead p s = (s, some (.declined .noEntry)) := by
  simp only [serveTableRead, h, tableOf]
  exact if_pos hbad

/-- A write of the settings that fits: PROTECTED when it reaches a protected entry, and stored otherwise. -/
theorem serveTableWrite_fits {count : Nat} (h : byteAt p 0 = 0) (hcount : byteAt p 2 = count) (hlo : 1 ≤ count)
    (hhi : count ≤ 10) (hlength : p.length = 3 + 2 * count) :
    serveTableWrite p s =
      let places := writablePlaces (byteAt p 1) count
      let u := writeSettings places (payloadValues p count) s.settings
      if ∃ i ∈ places, protectedGroup s.settings (settingGroup i) = true then (s, some (.declined .prot))
      else (s.withSettings u, some (.accepted ((readAt u.entries places).flatMap (beBytes 2)))) := by
  subst hcount
  simp only [serveTableWrite, h, tableOf]
  rw [if_neg (by omega)]
  simp only [List.any_eq_true]

/-- A TABLE WRITE of the settings with 1 to 10 values, by the places that it reaches. -/
theorem serveTableWrite_payload {start : Nat} {values : List Nat} (hstart : start < 256) (hlo : 1 ≤ values.length)
    (hhi : values.length ≤ 10) (hvalues : ∀ v ∈ values, v < 65536) :
    serveTableWrite (tableWritePayload .settings start values) s =
      let places := writablePlaces start values.length
      let u := writeSettings places values s.settings
      if ∃ i ∈ places, protectedGroup s.settings (settingGroup i) = true then (s, some (.declined .prot))
      else (s.withSettings u, some (.accepted ((readAt u.entries places).flatMap (beBytes 2)))) := by
  have hlength : (tableWritePayload .settings start values).length = 3 + 2 * values.length := by
    simp only [tableWritePayload_eq, List.length_cons, length_flatMap_beBytes]
    omega
  have hbyte : byteAt (tableWritePayload .settings start values) 0 = 0 ∧
      byteAt (tableWritePayload .settings start values) 1 = start ∧
      byteAt (tableWritePayload .settings start values) 2 = values.length := by
    rw [tableWritePayload_eq]
    refine ⟨rfl, ?_, ?_⟩ <;> exact Nat.mod_eq_of_lt (by omega)
  obtain ⟨htable, hfirst, hcount⟩ := hbyte
  rw [serveTableWrite_fits htable hcount hlo hhi hlength, hfirst, payloadValues_tableWritePayload _ _ hvalues]

theorem serveTableRead_fits {count : Nat} (h : byteAt p 0 = 0) (hcount : byteAt p 2 = count) (hlo : 1 ≤ count)
    (hhi : count ≤ 20) :
    serveTableRead p s =
      (s, some (.accepted ((readAt s.settings.entries (wrapPlaces 20 (byteAt p 1) (min 11 count))).flatMap
        (beBytes 2)))) := by
  subst hcount
  simp only [serveTableRead, h, tableOf]
  exact if_neg (by omega)

end

/-- Settles O49: each message by the table that its first byte names, the writes and reads of the settings by the
places from their start index. -/
theorem remoteWriteIsAnswered : Obligations.RemoteWriteIsAnswered := by
  refine ⟨fun s m start values hkind hentries hstart hlo hhi hvalues => ?write, fun s m hkind => ?cases,
    fun s m start count hkind hanchor hstart hlo hhi hbody => ?read⟩
  case write =>
    intro places
    rw [serveSlot_tableWrite hkind]
    refine ⟨fromAnchor_other _, fun hanchor => ?_⟩
    rw [fromAnchor_anchor _ hanchor]
    refine ⟨?_, fun hbody => ?_⟩
    · rintro (hbody | hbody) <;> rw [hbody, tableWritePayload_eq]
      · exact serveTableWrite_local (.inl rfl)
      · exact serveTableWrite_local (.inr rfl)
    have hplaces : writablePlaces start values.length = places := writablePlaces_eq _ _
    rw [hbody, serveTableWrite_payload hstart hlo hhi hvalues]
    simp only [hplaces]
    refine ⟨fun hprot => if_pos hprot, fun hopen => ?_⟩
    refine ⟨writeAt settingRange s.settings.entries (places.zip values), ?_, fun k hk => ?_, fun i hi => ?_⟩
    · rw [if_neg (by simpa using hopen), readAt, List.flatMap_map]
      rfl
    · refine writeAt_getD (hplaces ▸ writablePlaces_nodup _ _) (hplaces ▸ length_writablePlaces (by omega)) ?_ hk
      rw [hentries, ← hplaces]
      exact fun i hi => (writablePlaces_lt hi).trans (by omega)
    · exact writeAt_other _ _ _ i fun p hp he => hi (he ▸ (List.of_mem_zip hp).1)
  case cases =>
    intro count
    refine ⟨fun hother => ?_, fun hanchor => ?_⟩
    · rcases hkind with hkind | hkind
      · rw [serveSlot_tableWrite hkind, fromAnchor_other _ hother]
      · rw [serveSlot_tableRead hkind, fromAnchor_other _ hother]
    · have hwrite (hkind : m.kind = .tableWrite) : serveSlot m s = serveTableWrite m.body s :=
        (serveSlot_tableWrite hkind s).trans (fromAnchor_anchor _ hanchor)
      have hread (hkind : m.kind = .tableRead) : serveSlot m s = serveTableRead m.body s :=
        (serveSlot_tableRead hkind s).trans (fromAnchor_anchor _ hanchor)
      refine ⟨fun hlocal => ?_, fun hunknown => ?_, fun htable hkind hbad => ?_, fun htable hkind hbad => ?_⟩
      · exact hkind.elim (fun h => (hwrite h).trans (serveTableWrite_local hlocal))
          fun h => (hread h).trans (serveTableRead_local hlocal)
      · exact hkind.elim (fun h => (hwrite h).trans (serveTableWrite_unknown hunknown))
          fun h => (hread h).trans (serveTableRead_unknown hunknown)
      · exact (hwrite hkind).trans (serveTableWrite_misfit htable hbad)
      · exact (hread hkind).trans (serveTableRead_misfit htable hbad)
  case read =>
    have hbyte : byteAt m.body 0 = 0 ∧ byteAt m.body 1 = start ∧ byteAt m.body 2 = count := by
      rw [hbody, tableReadPayload_eq]
      refine ⟨rfl, ?_, ?_⟩ <;> exact Nat.mod_eq_of_lt (by omega)
    obtain ⟨htable, hfirst, hcount⟩ := hbyte
    rw [serveSlot_tableRead hkind, fromAnchor_anchor _ hanchor, serveTableRead_fits htable hcount hlo hhi, hfirst]
    simp [readAt, wrapPlaces, List.flatMap_map]

end Sys2Proof.Machine
end

section
/-! The seat records behind a JOIN outcome (chapter 06, R95, R103). -/

namespace Sys2Proof.Machine

open Sys2Proof

/-- A seat record that is not UNSEATED is one of the station's. -/
theorem lt_of_seatAt {s : State} {k : Nat} (h : seatAt s k ≠ .unseated) : k < s.seat.seats.length := by
  by_contra hk
  exact h (by simp [seatAt, List.getD_eq_getElem?_getD, List.getElem?_eq_none (not_lt.1 hk)])

/-- A seat record set is the one then read. -/
theorem seatAt_setSeat {s : State} {k : Nat} (hk : k < s.seat.seats.length) (r : SeatRecord) :
    seatAt (setSeat k r s) k = r := by
  simp [seatAt, setSeat, List.getD_eq_getElem?_getD, hk]

/-- A JOIN outcome changes its seat record by the table of R103. -/
theorem seatAt_joinOutcome {s : State} {k : Nat} (hk : k < s.seat.seats.length) (out : MsgOutcome) :
    seatAt (joinOutcome k out s) k = seatAfterJoin out (seatAt s k) := by
  have hseat : (joinOutcome k out s).seat = (setSeat k (seatAfterJoin out (seatAt s k)) s).seat := by
    simp [joinOutcome]
  rw [← seatAt_setSeat hk (seatAfterJoin out (seatAt s k)), seatAt, seatAt, hseat]

/-- A JOIN outcome that names a car seats its REQUESTED seat. -/
theorem seatAt_joinOutcome_car {s : State} {k c : Nat} {tag : List Byte} {out : MsgOutcome}
    (h : seatAt s k = .requested tag) (hcar : namedCar out = some c) :
    seatAt (joinOutcome k out s) k = .seated c tag := by
  rw [seatAt_joinOutcome (lt_of_seatAt (by simp [h])), h]
  simp [seatAfterJoin, hcar]

/-- A JOIN outcome that names no car makes its REQUESTED seat UNSEATED. -/
theorem seatAt_joinOutcome_none {s : State} {k : Nat} {tag : List Byte} {out : MsgOutcome}
    (h : seatAt s k = .requested tag) (hcar : namedCar out = none) :
    seatAt (joinOutcome k out s) k = .unseated := by
  rw [seatAt_joinOutcome (lt_of_seatAt (by simp [h])), h]
  simp [seatAfterJoin, hcar]

/-- The result payload of a join names its car. -/
theorem namedCar_accepted {c : Nat} (h : c < 8) : namedCar (joinAnswerOutcome (.accepted c)) = some c := by
  have hmod : c % 256 = c := Nat.mod_eq_of_lt (by omega)
  simp [joinAnswerOutcome, namedCar, beBytes, hmod, h]

theorem namedCar_declined (r : Decline) : namedCar (joinAnswerOutcome (.declined r)) = none := rfl

end Sys2Proof.Machine
end

section
/-! The wait limits: posts that have waited 18 cycles end LOST, and an idle receive entry closes (chapter 04 and
chapter 10, R73, R74, R161). -/

namespace Sys2Proof.Machine

open Sys2Proof Sys2Proof.Safety

/-! ## One entry ended LOST (R73, R74) -/

/-- A channel that takes the outcome LOST leaves the slot engine. -/
theorem bulkOutcome_lost_slots (ch : Nat) (s : State) : (bulkOutcome ch .lost s).slots = s.slots := by
  unfold bulkOutcome
  dsimp only
  split
  · split <;> simp
  · rfl

/-- An OUTCOME report is placed, or its outcome kept in the entry behind the others. -/
theorem outcomeReport_slots (o : Outstanding) (out : MsgOutcome) (s : State) :
    (outcomeReport o out s).slots = s.slots ∨
      (outcomeReport o out s).slots =
        { s.slots with
          outstanding := s.slots.outstanding ++ [{ o with progress := .reportPending out s.slots.outcomeOrder }],
          outcomeOrder := s.slots.outcomeOrder + 1 } := by
  unfold outcomeReport
  dsimp only
  split
  · exact .inl (by simp)
  · exact .inr rfl

/-- Of an entry that ends LOST the slot engine keeps at most the outcome. -/
theorem settleEntry_lost_slots (o : Outstanding) (s : State) :
    (settleEntry o .lost s).slots = s.slots ∨
      (settleEntry o .lost s).slots =
        { s.slots with
          outstanding := s.slots.outstanding ++ [{ o with progress := .reportPending .lost s.slots.outcomeOrder }],
          outcomeOrder := s.slots.outcomeOrder + 1 } := by
  have hreport := outcomeReport_slots o .lost s
  unfold settleEntry
  split
  · exact .inl (by simp)
  · exact .inl (by simp)
  · exact .inl (by simp)
  · split
    · exact .inl rfl
    · exact .inl (bulkOutcome_lost_slots _ s)
  · split
    · exact .inl rfl
    · exact .inl (bulkOutcome_lost_slots _ s)
  · exact hreport
  · exact hreport
  · exact hreport
  · exact hreport

/-- An entry that ends LOST leaves the outstanding table, or stays in it as REPORT PENDING behind the others. -/
theorem endEntry_lost_slots (o : Outstanding) (s : State) :
    (endEntry o .lost s).slots = { s.slots with outstanding := s.slots.outstanding.erase o } ∨
      (endEntry o .lost s).slots =
        { s.slots with
          outstanding := s.slots.outstanding.erase o ++
            [{ o with progress := .reportPending .lost s.slots.outcomeOrder }],
          outcomeOrder := s.slots.outcomeOrder + 1 } :=
  settleEntry_lost_slots o _

theorem waitedOut_iff (o : Outstanding) : waitedOut o = true ↔ o.progress = .waiting ∧ 18 ≤ o.waited := by
  simp [waitedOut]

/-- An entry that has waited out and ends LOST is one waited out entry less. -/
theorem waitedOut_endEntry (o : Outstanding) (s : State) :
    (endEntry o .lost s).slots.outstanding.filter waitedOut = (s.slots.outstanding.filter waitedOut).erase o := by
  have hpending (n : Nat) : waitedOut { o with progress := .reportPending .lost n } = false := rfl
  rcases endEntry_lost_slots o s with h | h <;> simp [h, hpending, List.erase_filter]

/-- The end of one entry leaves every other in the table. -/
theorem mem_endEntry_lost {o p : Outstanding} {s : State} (hp : p ∈ s.slots.outstanding) (hne : p ≠ o) :
    p ∈ (endEntry o .lost s).slots.outstanding := by
  have hmem := (List.mem_erase_of_ne hne).2 hp
  rcases endEntry_lost_slots o s with h | h <;> rw [h]
  · exact hmem
  · exact List.mem_append_left _ hmem

/-! ## Every waited out entry (R73) -/

/-- The waited out entries ended one by one, in table order. -/
def endEach (l : List Outstanding) (s : State) : State := l.foldl (fun s o => endEntry o .lost s) s

theorem endWaitedOut_eq (s : State) : endWaitedOut s = endEach (s.slots.outstanding.filter waitedOut) s := rfl

/-- After the waited out entries of a table have ended, none is left in it. -/
theorem waitedOut_endEach {l : List Outstanding} {s : State} (h : s.slots.outstanding.filter waitedOut = l) :
    (endEach l s).slots.outstanding.filter waitedOut = [] := by
  induction l generalizing s with
  | nil => exact h
  | cons o l ih => exact ih (s := endEntry o .lost s) (by rw [waitedOut_endEntry, h, List.erase_cons_head])

/-- Every entry that has not waited out stays. -/
theorem mem_endEach {l : List Outstanding} (hl : ∀ o ∈ l, waitedOut o = true) {p : Outstanding} {s : State}
    (hp : p ∈ s.slots.outstanding) (hwaits : waitedOut p = false) : p ∈ (endEach l s).slots.outstanding := by
  induction l generalizing s with
  | nil => exact hp
  | cons o l ih =>
    have hne : p ≠ o := by
      rintro rfl
      simp [hl p List.mem_cons_self] at hwaits
    exact ih (fun o ho => hl o (List.mem_cons_of_mem _ ho)) (mem_endEntry_lost hp hne)

/-- The queues are left as they are. -/
theorem endEach_queues (l : List Outstanding) (s : State) :
    (endEach l s).slots.urgent = s.slots.urgent ∧ (endEach l s).slots.normal = s.slots.normal := by
  have hstep (s : State) (o : Outstanding) : (endEntry o .lost s).slots.urgent = s.slots.urgent ∧
      (endEntry o .lost s).slots.normal = s.slots.normal := by
    rcases endEntry_lost_slots o s with h | h <;> rw [h] <;> exact ⟨rfl, rfl⟩
  exact ⟨foldl_keeps (fun s => s.slots.urgent) (fun s o => (hstep s o).1) l s,
    foldl_keeps (fun s => s.slots.normal) (fun s o => (hstep s o).2) l s⟩

/-! ## The idle receive entry (R161) -/

/-- While time passes an OPEN entry keeps all but its idle timer. -/
theorem recvAt_elapse {s : State} {i : Nat} {e : ReceiveEntry} (h : recvAt s i = some e) (d : Nat) :
    recvAt (elapse d s) i = some { e with idle := e.idle + d } := by
  unfold recvAt at h ⊢
  change (s.bulk.recv.map fun e => e.map fun r => { r with idle := r.idle + d }).getD i none = _
  rw [List.getD_eq_getElem?_getD] at h ⊢
  rw [List.getElem?_map]
  cases hi : s.bulk.recv[i]? with
  | none => simp [hi] at h
  | some x => simp_all

/-- Settles O27: entry by entry, and for the one entry by what `Settled` says of each kind. -/
theorem waitLimitsCloseEntries : Obligations.WaitLimitsCloseEntries := by
  refine ⟨fun s => ⟨endWaitedOut s, rfl, ?none, ?others, ?frame⟩, fun s o hone => ?one, fun s i e he => ?idle⟩
  case none =>
    intro o ho hwaiting
    have hnone := List.filter_eq_nil_iff.1 (waitedOut_endEach (s := s) rfl) o ho
    exact not_le.1 fun h => hnone ((waitedOut_iff o).2 ⟨hwaiting, h⟩)
  case others =>
    intro o ho hstays
    refine mem_endEach (fun p hp => (List.mem_filter.1 hp).2) ho ?_
    rw [← Bool.not_eq_true, waitedOut_iff]
    exact fun h => hstays.elim (· h.1) h.2.not_gt
  case frame =>
    have hqueues := endEach_queues (s.slots.outstanding.filter waitedOut) s
    exact ⟨hqueues.1, hqueues.2, by simp⟩
  case one =>
    intro u report
    have hexec : exec .outstandingWaitLimit s = .next (endEntry o .lost s) := by
      change Host.Outcome.next (endWaitedOut s) = _
      rw [endWaitedOut_eq, show s.slots.outstanding.filter waitedOut = [o] from hone]
      rfl
    obtain ⟨hreport, hpoll, -, -, hbulk⟩ := endEntry_settled o .lost s
    rw [hexec]
    refine ⟨fun hkind => ⟨fun hroom => ?_, fun hroom => ?_⟩, fun hkind => ?_, fun hkind w hw => ?_,
      fun hkind ch n count hch hknown hactive hout hlen => ?_⟩
    · rw [(hreport hkind).1 hroom]
    · rw [(hreport hkind).2 hroom]
    · rw [hpoll hkind]
    · have hend : endEntry o .lost s = joinOutcome o.seat .lost u := by
        simp only [endEntry, settleEntry, hkind]
        rfl
      refine ⟨_, rfl, ?_, ?_⟩ <;> rw [hend]
      · exact seatAt_joinOutcome_none (s := u) hw rfl
      · simp
    · obtain ⟨-, hchannel⟩ := hbulk (.inl hkind)
      obtain ⟨-, -, hsegment⟩ := hchannel ch hch hknown hlen
      have hfailed := (hsegment hactive n count hout).2.1 rfl
      have hchan : chanAt (endEntry o .lost s) ch =
          { chanAt s ch with state := .failed .lost, abortPending := false, buffer := [], out := none,
                             ready := none } := by
        rw [hfailed, chanAt_queueEvent]
        exact chanAt_setChan ch _ u hknown hlen
      have hslots (r : Report) (v : State) : (queueEvent r v).slots = v.slots := by simp
      refine ⟨_, rfl, by rw [hchan], by rw [hchan], by rw [hchan], ?_⟩
      rw [hfailed]
      exact hslots _ _
  case idle =>
    intro u
    change Host.Outcome.next (atInstant (idleRemaining s i) (closeRecv i .idle) s) = _
    rw [idleRemaining, he]
    simp only [Option.map_some, atInstant, closeRecv, recvAt_elapse he]
    rfl

end Sys2Proof.Machine
end

section
/-! Slots in use at a MAPPED node: the rows of R68's table one by one, the answers of a destination, and the copies of a
broadcast (chapter 04, R68 to R70, R73, R74). -/

namespace Sys2Proof.Machine

open Sys2Proof Sys2Proof.Safety

/-! ## The waiting entry of a slot (R57, R73) -/

/-- A slot at a place names an entry: the entry waits, and is of the slot's kind, tag and place. -/
def NamesEntry (place : Nat) (m : SlotMsg) (o : Outstanding) : Prop :=
  o.progress = .waiting ∧ o.kind = m.kind ∧ o.tag = m.tag ∧ o.place = place

theorem namesEntry_iff (place : Nat) (m : SlotMsg) (o : Outstanding) :
    (o.progress == .waiting && o.kind == m.kind && o.tag == m.tag && o.place == place) = true ↔
      NamesEntry place m o := by
  simp [NamesEntry, and_assoc]

section
variable {place : Nat} {m : SlotMsg} {s : State} {o : Outstanding}

/-- A stale slot names no entry. -/
theorem matching_none (h : ∀ o ∈ s.slots.outstanding, ¬ NamesEntry place m o) : matching s.slots place m = none :=
  List.find?_eq_none.2 fun o ho hnames => h o ho ((namesEntry_iff place m o).1 hnames)

/-- The one entry that a slot names is the one found. -/
theorem matching_some (ho : o ∈ s.slots.outstanding) (hnames : NamesEntry place m o)
    (hone : ∀ p ∈ s.slots.outstanding, NamesEntry place m p → p = o) : matching s.slots place m = some o := by
  cases h : matching s.slots place m with
  | none => exact absurd ((namesEntry_iff place m o).2 hnames) (List.find?_eq_none.1 h o ho)
  | some p =>
    have hp := List.find?_some (show s.slots.outstanding.find? _ = some p from h)
    rw [hone p (List.mem_of_find?_eq_some h) ((namesEntry_iff place m p).1 hp)]

theorem takeOutcome_stale (out : MsgOutcome) (h : ∀ o ∈ s.slots.outstanding, ¬ NamesEntry place m o) :
    takeOutcome place m out s = s := by
  simp only [takeOutcome, matching_none h]

theorem takeAnswer_stale (h : ∀ o ∈ s.slots.outstanding, ¬ NamesEntry place m o) : takeAnswer place m s = s := by
  simp only [takeAnswer, matching_none h]

/-- An outcome taken ends the entry that the slot names, in the block that waits for it. -/
theorem takeOutcome_settled (out : MsgOutcome) (ho : o ∈ s.slots.outstanding) (hnames : NamesEntry place m o)
    (hone : ∀ p ∈ s.slots.outstanding, NamesEntry place m p → p = o) :
    Settled o out s (takeOutcome place m out s) := by
  simp only [takeOutcome, matching_some ho hnames hone]
  exact endEntry_settled o out s

/-- An answer taken ends the entry with the outcome that the slot carries. -/
theorem takeAnswer_settled {out : MsgOutcome} (hout : outcomeOf m.outcome m.body = some out)
    (ho : o ∈ s.slots.outstanding) (hnames : NamesEntry place m o)
    (hone : ∀ p ∈ s.slots.outstanding, NamesEntry place m p → p = o) :
    Settled o out s (takeAnswer place m s) := by
  simp only [takeAnswer, matching_some ho hnames hone, slotOutcome, hout]
  exact endEntry_settled o out s

/-- The hold mark spares the entry that the slot names, and every other stands as it did (R73). -/
theorem spareEntry_getElem? {k : Nat} (h : s.slots.outstanding[k]? = some o) :
    (NamesEntry place m o →
      (spareEntry place m s.slots).outstanding[k]? = some { o with waited := 0, spared := true }) ∧
    (¬ NamesEntry place m o → (spareEntry place m s.slots).outstanding[k]? = some o) := by
  simp only [spareEntry, List.getElem?_map, h, Option.map_some]
  exact ⟨fun hnames => by rw [if_pos ((namesEntry_iff place m o).2 hnames)],
    fun hnames => by rw [if_neg fun h => hnames ((namesEntry_iff place m o).1 h)]⟩

end

/-! ## The slot answered (R63, R69) -/

/-- A payload of at most 24 bytes stands at the front of the payload bytes, with 0 behind it. -/
theorem padPayload_of_le {p : List Byte} (h : p.length ≤ 24) :
    padPayload p = p ++ List.replicate (24 - p.length) 0 := by
  rw [padPayload, List.take_append, List.take_of_length_le h, List.take_replicate, min_eq_left (Nat.sub_le _ _)]

theorem answerSlot_accepted (m : SlotMsg) {p : List Byte} (h : p.length ≤ 24) :
    answerSlot m (.accepted p) =
      { m with answered := true, hold := false, outcome := 1, len := p.length,
               payload := p ++ List.replicate (24 - p.length) 0 } := by
  rw [← padPayload_of_le h]
  rfl

/-! ## Messages for the station (R69, R111) -/

section
variable {m : SlotMsg} {s : State}

/-- A GAME whose report has room is ACCEPTED with it. -/
theorem serveSlot_game_room (hkind : m.kind = .game)
    (h : reportSize (.gameIn m.source m.cls m.tag m.body false) ≤ reportFree s) :
    serveSlot m s = (placeReport (.gameIn m.source m.cls m.tag m.body false) s, some (.accepted [])) := by
  simp only [serveSlot, hkind, serveGame]
  exact if_pos (roomFor_of_le h)

/-- A GAME whose report lacks room is deferred. -/
theorem serveSlot_game_full (hkind : m.kind = .game)
    (h : reportFree s < reportSize (.gameIn m.source m.cls m.tag m.body false)) : serveSlot m s = (s, none) := by
  simp only [serveSlot, hkind, serveGame]
  exact if_neg (by simp [gameReport, roomFor_of_lt h])

/-- A POLL of the anchor ends a pending attention request, with its report, and carries the code. -/
theorem serveSlot_poll_pending (hkind : m.kind = .poll) (hanchor : mirrorAnchor s = some m.source)
    (h : s.seat.attentionPending = true) :
    serveSlot m s =
      (queueEvent (.pollComplete s.seat.attentionCode) { s with seat := { s.seat with attentionPending := false } },
        some (.accepted [BitVec.ofNat 8 s.seat.attentionCode, 1])) := by
  simp [serveSlot, hkind, fromAnchor, hanchor, servePoll, h, bitNum, beBytes, State.withSeat]

/-- A POLL of the anchor without a request pending changes nothing. -/
theorem serveSlot_poll_idle (hkind : m.kind = .poll) (hanchor : mirrorAnchor s = some m.source)
    (h : s.seat.attentionPending = false) :
    serveSlot m s = (s, some (.accepted [BitVec.ofNat 8 s.seat.attentionCode, 0])) := by
  simp [serveSlot, hkind, fromAnchor, hanchor, servePoll, h, bitNum, beBytes]

/-- A POLL or table message of another station than the anchor, at a node that knows its anchor or at any that does
not. -/
theorem serveSlot_notAnchor (hkind : m.kind = .poll ∨ m.kind = .tableWrite ∨ m.kind = .tableRead)
    (h : mirrorAnchor s ≠ some m.source) : serveSlot m s = (s, some (.declined .undeliverable)) := by
  rcases hkind with hkind | hkind | hkind <;> simp only [serveSlot, hkind] <;> exact fromAnchor_other _ h

/-- The kinds that no node serves. -/
theorem serveSlot_unserved (hkind : m.kind = .join ∨ m.kind = .leave ∨ m.kind = .clearStations) :
    serveSlot m s = (s, some (.declined .undeliverable)) := by
  rcases hkind with hkind | hkind | hkind <;> simp only [serveSlot, hkind]

theorem serveSlot_bulkSegment (hkind : m.kind = .bulkSegment) : serveSlot m s = segmentAt m.source m.body s := by
  simp only [serveSlot, hkind]

theorem serveSlot_bulkAbort (hkind : m.kind = .bulkAbort) : serveSlot m s = abortAt m.source m.body s := by
  simp only [serveSlot, hkind]

/-! ## Copies of a broadcast (R70) -/

/-- A station copies a broadcast on the lap on which it lies behind the source. -/
theorem copiesBroadcast_iff (s : State) (m : SlotMsg) : copiesBroadcast s m = true ↔
    ∃ p q, mirrorPosition s = some p ∧ positionOf (mirrorMap s) m.source = some q ∧
      ((m.relay = 0 ∧ q < p) ∨ (m.relay = 1 ∧ p < q)) := by
  unfold copiesBroadcast
  split
  · next p q hp hq => simp [hp, hq]
  · next h =>
    refine iff_of_false (by simp) ?_
    rintro ⟨p, q, hp, hq, -⟩
    exact h p q hp hq

/-- A copy of a GAME is reported, or dropped with its notice. -/
theorem copyBroadcast_game (hkind : m.kind = .game) (s : State) :
    copyBroadcast m s =
      if reportSize (.gameIn m.source m.cls m.tag m.body true) ≤ reportFree s then
        { s with port := { s.port with reports := s.port.reports ++ [.gameIn m.source m.cls m.tag m.body true] } }
      else { s with port := { s.port with notices := insertNotice .messageDrop s.port.notices } } := by
  simp only [copyBroadcast, hkind]
  exact if_congr decide_eq_true_iff rfl rfl

theorem copyBroadcast_clear (hkind : m.kind = .clearStations) (s : State) : CopiesClear s (copyBroadcast m s) := by
  simp only [copyBroadcast, hkind]
  exact clearStationsCopy_clears s

/-! ## The rows of R68 -/

variable {place : Nat}

theorem nodeSlot_ownAnswer (ha : m.answered = true) (hs : m.source = address s) :
    nodeSlot place m s = (none, takeAnswer place m s) := by simp [nodeSlot, ha, hs]

theorem nodeSlot_otherAnswer (ha : m.answered = true) (hs : m.source ≠ address s) :
    nodeSlot place m s = (some m, s) := by simp [nodeSlot, ha, hs]

theorem nodeSlot_ownBroadcast (ha : m.answered = false) (hd : m.dest = 15) (hs : m.source = address s) :
    nodeSlot place m s = if m.relay = 1 then (none, takeOutcome place m (.accepted []) s) else (some m, s) := by
  simp [nodeSlot, ha, hd, hs]

theorem nodeSlot_answers {t : State} {out : MsgOutcome} (ha : m.answered = false) (hd : m.dest = address s)
    (h15 : m.dest ≠ 15) (h : serveSlot m s = (t, some out)) :
    nodeSlot place m s = (some (answerSlot m out), t) := by
  rw [nodeSlot, if_neg (by simp [ha]), if_neg fun h => h15 h.1, if_pos hd, h]

theorem nodeSlot_defers {t : State} (ha : m.answered = false) (hd : m.dest = address s) (h15 : m.dest ≠ 15)
    (h : serveSlot m s = (t, none)) : nodeSlot place m s = (some m, t) := by
  rw [nodeSlot, if_neg (by simp [ha]), if_neg fun h => h15 h.1, if_pos hd, h]

theorem nodeSlot_broadcast (ha : m.answered = false) (hd : m.dest = 15) (hs : m.source ≠ address s)
    (h15 : address s ≠ 15) :
    nodeSlot place m s = (some m, if copiesBroadcast s m = true then copyBroadcast m s else s) := by
  simp [nodeSlot, ha, hd, hs, h15.symm]

theorem nodeSlot_passing (ha : m.answered = false) (h15 : m.dest ≠ 15) (hd : m.dest ≠ address s) :
    nodeSlot place m s =
      if m.hold = true ∧ m.source = address s then (some m, s.withSlots (spareEntry place m s.slots))
      else (some m, s) := by
  simp [nodeSlot, ha, hd, h15]

end

/-- Settles O14: the slot by its row of R68, and what it carries by the block that it is for. -/
theorem slotsAtANode : Obligations.SlotsAtANode := by
  intro place m s mine answered
  refine ⟨fun ha hs => ?ownAnswer, nodeSlot_otherAnswer, fun ha hd h15 => ?served, fun ha hd hs => ?ownBroadcast,
    fun ha hd hs h15 => ?broadcast, fun ha h15 hd => ?passing⟩
  case ownAnswer =>
    rw [nodeSlot_ownAnswer ha hs]
    exact ⟨fun hstale => by rw [takeAnswer_stale hstale],
      fun o ho hnames hone out hout => ⟨_, rfl, takeAnswer_settled hout ho hnames hone⟩⟩
  case served =>
    have hanswers {t : State} {out : MsgOutcome} (h : serveSlot m s = (t, some out)) :
        nodeSlot place m s = (some (answerSlot m out), t) := nodeSlot_answers ha hd h15 h
    have haccepted {t : State} {p : List Byte} (hp : p.length ≤ 24) (h : serveSlot m s = (t, some (.accepted p))) :
        nodeSlot place m s = (some (answered 1 p.length (p ++ List.replicate (24 - p.length) 0)), t) := by
      rw [hanswers h, answerSlot_accepted m hp]
    have hdeclined {t : State} {why : Decline} (h : serveSlot m s = (t, some (.declined why))) :
        nodeSlot place m s = (some (answered (declineCode why) 0 (List.replicate 24 0)), t) := hanswers h
    refine ⟨fun hkind => ⟨fun hroom => ?_, fun hfull => ?_⟩, fun hkind hanchor => ⟨fun hpending => ?_, fun hidle => ?_⟩,
      fun hkind => ?_, serveSlot_bulkSegment, serveSlot_bulkAbort, fun t p hp h => haccepted hp h,
      fun t why h => hdeclined h, fun t h => nodeSlot_defers ha hd h15 h⟩
    · exact haccepted (Nat.zero_le _) (serveSlot_game_room hkind hroom)
    · exact nodeSlot_defers ha hd h15 (serveSlot_game_full hkind hfull)
    · exact haccepted (by simp) (serveSlot_poll_pending hkind hanchor hpending)
    · exact haccepted (by simp) (serveSlot_poll_idle hkind hanchor hidle)
    · rw [← or_assoc, ← or_assoc] at hkind
      rcases hkind with hkind | ⟨hkind, hanchor⟩
      · exact hdeclined (serveSlot_unserved (or_assoc.1 hkind))
      · exact hdeclined (serveSlot_notAnchor hkind hanchor)
  case ownBroadcast =>
    rw [nodeSlot_ownBroadcast ha hd hs]
    refine ⟨fun hrelay => if_neg hrelay, fun hrelay => ?_⟩
    rw [if_pos hrelay]
    exact ⟨rfl, fun hstale => by rw [takeOutcome_stale _ hstale],
      fun o ho hnames hone => ⟨_, rfl, takeOutcome_settled _ ho hnames hone⟩⟩
  case broadcast =>
    rw [nodeSlot_broadcast ha hd hs h15]
    have hpasses (h : ¬ copiesBroadcast s m = true) :
        (some m, if copiesBroadcast s m = true then copyBroadcast m s else s) = (some m, s) := by rw [if_neg h]
    refine ⟨rfl, fun hnone => hpasses ?_, fun p q hp hq => ⟨fun hlap => hpasses ?_, fun hlap hkind => ?_,
      fun hlap hkind => ?_⟩⟩
    · rw [copiesBroadcast_iff]
      rintro ⟨p, q, hp, hq, hlap⟩
      rcases hnone with h | h | h
      · simp [h] at hp
      · simp [h] at hq
      · omega
    · rw [copiesBroadcast_iff]
      rintro ⟨p', q', hp', hq', hlap'⟩
      rw [hp] at hp'
      rw [hq] at hq'
      cases hp'
      cases hq'
      omega
    · rw [if_pos ((copiesBroadcast_iff s m).2 ⟨p, q, hp, hq, hlap⟩)]
      exact ⟨_, rfl, copyBroadcast_clear hkind s⟩
    · rw [if_pos ((copiesBroadcast_iff s m).2 ⟨p, q, hp, hq, hlap⟩), copyBroadcast_game hkind]
  case passing =>
    rw [nodeSlot_passing ha h15 hd]
    refine ⟨fun hfree => if_neg ?_, fun hhold hs => ⟨(spareEntry place m s.slots).outstanding, ?_, ?_, ?_⟩⟩
    · rintro ⟨hhold, hs⟩
      exact hfree.elim (by simp [hhold]) (· hs)
    · exact if_pos ⟨hhold, hs⟩
    · simp [spareEntry]
    · exact fun k o h => spareEntry_getElem? h

end Sys2Proof.Machine
end

section
/-! Returned slots at the anchor: the rows of R71's table one by one, and what the anchor serves (chapter 04, R69 to
R74). -/

namespace Sys2Proof.Machine

open Sys2Proof Sys2Proof.Safety

/-! ## A slot carried forward (R72) -/

section
variable {m : SlotMsg} {s : State}

theorem carry_held (h : m.hold = true) : carry m s = (some m, s) := by simp [carry, h]

theorem carry_below (hhold : m.hold = false) (hrelay : m.relay < 15) :
    carry m s = (some { m with relay := m.relay + 1 }, s) := by simp [carry, hhold, hrelay]

/-- A slot carried at relay count 15 gets a free count (notes/assumptions/16.md). -/
theorem carry_top (hhold : m.hold = false) (hrelay : m.relay = 15) :
    ∃ r n, carry m s = (some { m with relay := r }, { s with freeCount := n }) ∧ r < 16 :=
  ⟨(freeValue s).1 % 16, s.freeCount + 1, by simp [carry, hhold, hrelay, State.withFreeCount],
    Nat.mod_lt _ (by omega)⟩

end

/-! ## The held slot lost (R72, R102) -/

theorem loseReferral_free (s : State) : (loseReferral s).race.referral = .free := by
  unfold loseReferral
  split <;> simp_all [queueReferral]

section
variable {place : Nat} {s : State}

theorem loseHeld_eq_self (h : ∀ e ∈ s.slots.held, e.place ≠ place) : loseHeld place s = s :=
  if_neg (by simpa using h)

/-- A held slot lost leaves the held-slot list, and its referral record is FREE. -/
theorem loseHeld_of_held (h : ∃ e ∈ s.slots.held, e.place = place) :
    (loseHeld place s).slots.held = s.slots.held.filter (fun e => e.place != place) ∧
      (loseHeld place s).race.referral = .free := by
  rw [loseHeld, if_pos (by simpa using h)]
  exact ⟨by simp, loseReferral_free _⟩

theorem loseHeld_leaves_place (place : Nat) (s : State) : ∀ e ∈ (loseHeld place s).slots.held, e.place ≠ place := by
  by_cases h : ∃ e ∈ s.slots.held, e.place = place
  · rw [(loseHeld_of_held h).1]
    intro e he
    simpa using (List.mem_filter.1 he).2
  · push Not at h
    rwa [loseHeld_eq_self h]

end

/-! ## A slot for the anchor (R69, R71) -/

section
variable {place : Nat} {m : SlotMsg} {s t : State}

theorem anchorServe_answers {out : MsgOutcome} (hjoin : m.kind ≠ .join) (hleave : m.kind ≠ .leave)
    (h : serveSlot m s = (t, some out)) : anchorServe place m s = (t, .answer out) := by
  unfold anchorServe
  split
  · exact absurd ‹_› hjoin
  · exact absurd ‹_› hleave
  · rw [h]

theorem anchorServe_defers (hjoin : m.kind ≠ .join) (hleave : m.kind ≠ .leave) (h : serveSlot m s = (t, none)) :
    anchorServe place m s = (t, .left m.hold) := by
  unfold anchorServe
  split
  · exact absurd ‹_› hjoin
  · exact absurd ‹_› hleave
  · rw [h]

/-- Serving a slot leaves the ring map. -/
theorem anchorServe_survey (place : Nat) (m : SlotMsg) (s : State) :
    (anchorServe place m s).1.survey = s.survey := by
  have hserve : (serveSlot m s).1.survey = s.survey := by simp
  unfold anchorServe
  split
  · split <;> simp
  · simp
  · split
    · next h => rw [h] at hserve; exact hserve
    · next h => rw [h] at hserve; exact hserve

/-! ## The rows of R71 behind the destination row -/

theorem relayPosted_top (hhold : m.hold = false) (hrelay : m.relay = 15) :
    relayPosted place m s = carry (answerSlot m (.declined .undeliverable)) s := if_pos ⟨hhold, hrelay⟩

theorem relayPosted_noBroadcast (hrelay : m.relay < 15) (hd : m.dest = 15) (hgame : m.kind ≠ .game)
    (hclear : m.kind ≠ .clearStations) :
    relayPosted place m s = carry (answerSlot m (.declined .undeliverable)) s := by
  rw [relayPosted, if_neg fun h => hrelay.ne h.2, if_pos ⟨hd, hgame, hclear⟩]

theorem relayPosted_noStation (hrelay : m.relay < 15) (hd : m.dest ≠ 15) (hlist : lists s.survey.map m.dest = false) :
    relayPosted place m s = carry (answerSlot m (.declined .noStation)) s := by
  rw [relayPosted, if_neg fun h => hrelay.ne h.2, if_neg fun h => hd h.1, if_pos ⟨hd, hlist⟩]

/-- A slot on its way to a listed station is carried forward. -/
theorem relayPosted_unicast (hpass : m.hold = true ∨ m.relay < 15) (hd : m.dest ≠ 15)
    (hlist : lists s.survey.map m.dest = true) : relayPosted place m s = carry m s := by
  have htop : ¬ (m.hold = false ∧ m.relay = 15) := by
    rintro ⟨hhold, hrelay⟩
    rcases hpass with h | h
    · simp [hhold] at h
    · omega
  rw [relayPosted, if_neg htop, if_neg fun h => hd h.1, if_neg (by simp [hlist]), if_neg fun h => hd h.1,
    if_neg fun h => hd h.1, if_neg fun h => hd h.1]

/-- A broadcast behind the rows that answer for a destination: copied on its first return, emptied on its next, and the
anchor's own ended on its first. -/
theorem relayPosted_broadcast (hrelay : m.relay < 15) (hd : m.dest = 15)
    (hkind : m.kind = .game ∨ m.kind = .clearStations) :
    relayPosted place m s =
      if m.relay = 0 then
        if m.source = address s then (none, takeOutcome place m (.accepted []) s) else carry m (copyBroadcast m s)
      else (none, s) := by
  have hcan : ¬ (m.dest = 15 ∧ m.kind ≠ .game ∧ m.kind ≠ .clearStations) := fun h => hkind.elim h.2.1 h.2.2
  rw [relayPosted, if_neg fun h => hrelay.ne h.2, if_neg hcan, if_neg fun h => h.1 hd]
  by_cases hfirst : m.relay = 0
  · by_cases hs : m.source = address s <;> simp [hd, hfirst, hs]
  · simp [hd, hfirst, Nat.one_le_iff_ne_zero]

/-! ## The rows of R71 -/

variable {syms : List RxSym}

theorem relaySlot_unused (h : parseSlot syms = some none) : relaySlot place syms s = (none, s) := by
  simp only [relaySlot, h]

/-- A slot whose check fails, or that a source not listed has posted, is emptied and a held slot lost with it. -/
theorem relaySlot_lost (h : parseSlot syms = none ∨ ∃ m, parseSlot syms = some (some m) ∧ m.answered = false ∧
    lists s.survey.map m.source = false) : relaySlot place syms s = (none, loseHeld place s) := by
  rcases h with h | ⟨m, h, ha, hlist⟩
  · simp only [relaySlot, h]
  · simp [relaySlot, h, ha, hlist]

theorem relaySlot_answered (hp : parseSlot syms = some (some m)) (ha : m.answered = true) :
    relaySlot place syms s = relayAnswered place m s := by simp [relaySlot, hp, ha]

theorem relaySlot_posted (hp : parseSlot syms = some (some m)) (ha : m.answered = false)
    (hlist : lists s.survey.map m.source = true) (hd : m.dest ≠ address s) :
    relaySlot place syms s = relayPosted place m s := by simp [relaySlot, hp, ha, hlist, hd]

section
variable (hp : parseSlot syms = some (some m)) (ha : m.answered = false)
  (hlist : lists s.survey.map m.source = true) (hd : m.dest = address s)
include hp ha hlist hd

theorem relaySlot_answer {out : MsgOutcome} (h : anchorServe place m s = (t, .answer out)) :
    relaySlot place syms s = carry (answerSlot m out) t := by simp [relaySlot, hp, ha, hlist, hd, h]

theorem relaySlot_hold (h : anchorServe place m s = (t, .left true)) :
    relaySlot place syms s = (some { m with hold := true }, t) := by
  simp [relaySlot, hp, ha, hlist, hd, h, carry]

theorem relaySlot_left (h : anchorServe place m s = (t, .left false)) :
    relaySlot place syms s = relayPosted place { m with hold := false } t := by
  simp [relaySlot, hp, ha, hlist, hd, h]

/-- An answer of the anchor goes back with its relay count raised. -/
theorem relaySlot_answer_below {out : MsgOutcome} (hrelay : m.relay < 15)
    (h : anchorServe place m s = (t, .answer out)) :
    relaySlot place syms s = (some { answerSlot m out with relay := m.relay + 1 }, t) :=
  (relaySlot_answer hp ha hlist hd h).trans (carry_below rfl hrelay)

/-- A slot deferred without the hold mark goes on to come back, below relay count 15. -/
theorem relaySlot_left_below (hrelay : m.relay < 15) (h15 : m.dest ≠ 15) (hdlist : lists s.survey.map m.dest = true)
    (h : anchorServe place m s = (t, .left false)) :
    relaySlot place syms s = (some { m with hold := false, relay := m.relay + 1 }, t) := by
  have hmap : t.survey = s.survey := by simpa [h] using anchorServe_survey place m s
  rw [relaySlot_left hp ha hlist hd h]
  refine (relayPosted_unicast (m := { m with hold := false }) (.inr hrelay) h15 ?_).trans (carry_below rfl hrelay)
  rw [hmap]
  exact hdlist

/-- A slot deferred at relay count 15 is answered for the anchor (R71). -/
theorem relaySlot_left_top (hrelay : m.relay = 15) (h : anchorServe place m s = (t, .left false)) :
    ∃ r n, relaySlot place syms s =
      (some { answerSlot m (.declined .undeliverable) with relay := r }, { t with freeCount := n }) ∧ r < 16 := by
  rw [relaySlot_left hp ha hlist hd h, relayPosted_top (m := { m with hold := false }) rfl hrelay]
  exact carry_top rfl hrelay

theorem relaySlot_answer_top {out : MsgOutcome} (hrelay : m.relay = 15)
    (h : anchorServe place m s = (t, .answer out)) :
    ∃ r n, relaySlot place syms s =
      (some { answerSlot m out with relay := r }, { t with freeCount := n }) ∧ r < 16 := by
  rw [relaySlot_answer hp ha hlist hd h]
  exact carry_top rfl hrelay

end

end

/-- Settles O15: the slot by its row of R71, and a slot for the anchor by what serving it gives. -/
theorem relayFollowsItsTable : Obligations.RelayFollowsItsTable := by
  intro place syms s
  refine ⟨relaySlot_unused, fun hlost => ?lost, fun m hp => ?used⟩
  case lost =>
    rw [relaySlot_lost hlost]
    exact ⟨rfl, loseHeld_leaves_place place s, loseHeld_eq_self, fun h => (loseHeld_of_held h).2⟩
  case used =>
    intro carried declined mine
    refine ⟨fun ha hlist => ⟨fun hd hkind hhold hrelay => ?game, fun hd => ?passing, fun hd hrelay => ?served,
      fun hd hhold hrelay => ?top⟩, fun ha => ⟨fun hs => ?ownAnswer, fun hs hgone => ?goneAnswer,
        fun hs hlist hrelay hhold => ?otherAnswer⟩⟩
    case game =>
      have hgame : m.kind ≠ .join ∧ m.kind ≠ .leave := by simp [hkind]
      refine ⟨fun hroom => ?_, fun hfull h15 hdlist => ?_⟩
      · have hserve := anchorServe_answers (place := place) hgame.1 hgame.2 (serveSlot_game_room hkind hroom)
        rw [relaySlot_answer_below hp ha hlist hd hrelay hserve, answerSlot_accepted m (Nat.zero_le _)]
        simp only [carried, hhold]
        rfl
      · have hserve := anchorServe_defers (place := place) hgame.1 hgame.2 (serveSlot_game_full hkind hfull)
        rw [hhold] at hserve
        rw [relaySlot_left_below hp ha hlist hd hrelay h15 hdlist hserve, ← hhold]
    case passing =>
      rw [relaySlot_posted hp ha hlist hd]
      refine ⟨fun hhold hrelay => ?_, fun hrelay h15 hgame hclear => ?_, fun hrelay h15 hdlist => ?_,
        fun hrelay hhold h15 hdlist => ?_, fun hhold h15 hdlist => ?_, fun h15 hkind hhold hs => ?_,
        fun h15 hkind hhold hs => ?_, fun h15 hkind hs hrelay => ?_⟩
      · rw [relayPosted_top hhold hrelay]
        exact carry_top rfl hrelay
      · exact (relayPosted_noBroadcast hrelay h15 hgame hclear).trans (carry_below rfl hrelay)
      · exact (relayPosted_noStation hrelay h15 hdlist).trans (carry_below rfl hrelay)
      · exact (relayPosted_unicast (.inr hrelay) h15 hdlist).trans (carry_below hhold hrelay)
      · exact (relayPosted_unicast (.inl hhold) h15 hdlist).trans (carry_held hhold)
      · refine ⟨fun hrelay => ?_, fun hlap hrelay => ?_⟩
        · rw [relayPosted_broadcast (by omega) h15 (.inl hkind), if_pos hrelay, if_neg hs,
            carry_below hhold (by omega), copyBroadcast_game hkind]
        · rw [relayPosted_broadcast hrelay h15 (.inl hkind), if_neg (by omega)]
      · refine ⟨fun hrelay => ⟨copyBroadcast m s, ?_, copyBroadcast_clear hkind s⟩, fun hlap hrelay => ?_⟩
        · rw [relayPosted_broadcast (by omega) h15 (.inr hkind), if_pos hrelay, if_neg hs,
            carry_below hhold (by omega)]
        · rw [relayPosted_broadcast hrelay h15 (.inr hkind), if_neg (by omega)]
      · rw [relayPosted_broadcast (by omega) h15 hkind, if_pos hrelay, if_pos hs]
        exact ⟨fun hstale => by rw [takeOutcome_stale _ hstale],
          fun o ho hnames hone => ⟨_, rfl, takeOutcome_settled _ ho hnames hone⟩⟩
    case served =>
      have hdeclined {t : State} {why : Decline} (hjoin : m.kind ≠ .join) (hleave : m.kind ≠ .leave)
          (h : serveSlot m s = (t, some (.declined why))) :
          relaySlot place syms s = (carried (declined (declineCode why)), t) :=
        relaySlot_answer_below hp ha hlist hd hrelay (anchorServe_answers hjoin hleave h)
      refine ⟨fun hkind hmirrors => ?_, fun hkind => ?_, fun t hkind => ?_⟩
      · have hanchor : mirrorAnchor s ≠ some m.source := by
          rw [show mirrorAnchor s = none by simp only [mirrorAnchor, mirrorMap, hmirrors]; rfl]
          simp
        have hother : m.kind ≠ .join ∧ m.kind ≠ .leave := by rcases hkind with h | h | h <;> simp [h]
        exact hdeclined hother.1 hother.2 (serveSlot_notAnchor hkind hanchor)
      · exact hdeclined (by simp [hkind]) (by simp [hkind]) (serveSlot_unserved (.inr (.inr hkind)))
      · have hother : m.kind ≠ .join ∧ m.kind ≠ .leave := by rcases hkind with h | h <;> simp [h]
        refine ⟨fun p hlength h => ?_, fun why h => hdeclined hother.1 hother.2 h, fun h hhold h15 hdlist => ?_⟩
        · rw [relaySlot_answer_below hp ha hlist hd hrelay (anchorServe_answers hother.1 hother.2 h),
            answerSlot_accepted m hlength]
        · have hserve := anchorServe_defers (place := place) hother.1 hother.2 h
          rw [hhold] at hserve
          rw [relaySlot_left_below hp ha hlist hd hrelay h15 hdlist hserve, ← hhold]
    case top =>
      intro left
      refine ⟨fun hkind hfull => ?_, fun t hkind h => ?_, fun earlier k t hpe hearlier h15 hdlist => ?_⟩
      · have hserve := anchorServe_defers (place := place) (by simp [hkind]) (by simp [hkind])
          (serveSlot_game_full hkind hfull)
        rw [hhold] at hserve
        exact relaySlot_left_top hp ha hlist hd hrelay hserve
      · have hserve := anchorServe_defers (place := place) (by simp [hkind]) (by simp [hkind]) h
        rw [hhold] at hserve
        exact relaySlot_left_top hp ha hlist hd hrelay hserve
      · cases hserve : anchorServe place m s with
        | mk u served =>
          have hserve' : anchorServe place { m with relay := 14 } s = (u, served) := hserve
          cases served with
          | answer out =>
            have hbelow := (relaySlot_answer_below hpe ha hlist hd (by simp) hserve').symm.trans hearlier
            obtain ⟨hk, rfl⟩ := Prod.mk.inj hbelow
            obtain rfl := Option.some.inj hk
            exact ⟨fun _ => relaySlot_answer_top hp ha hlist hd hrelay hserve, by simp [answerSlot],
              by simp [answerSlot]⟩
          | left hold =>
            cases hold with
            | true =>
              have hbelow := (relaySlot_hold hpe ha hlist hd hserve').symm.trans hearlier
              obtain ⟨hk, rfl⟩ := Prod.mk.inj hbelow
              obtain rfl := Option.some.inj hk
              refine ⟨by simp [ha], fun _ _ => ?_, by simp⟩
              rw [relaySlot_hold hp ha hlist hd hserve, ← hrelay]
            | false =>
              have hbelow := (relaySlot_left_below hpe ha hlist hd (by simp) h15 hdlist hserve').symm.trans hearlier
              obtain ⟨hk, rfl⟩ := Prod.mk.inj hbelow
              obtain rfl := Option.some.inj hk
              exact ⟨by simp [ha], by simp, fun _ _ => relaySlot_left_top hp ha hlist hd hrelay hserve⟩
    case ownAnswer =>
      rw [relaySlot_answered hp ha, relayAnswered, if_pos hs]
      exact ⟨fun hstale => by rw [takeAnswer_stale hstale],
        fun o ho hnames hone out hout => ⟨_, rfl, takeAnswer_settled hout ho hnames hone⟩⟩
    case goneAnswer =>
      rw [relaySlot_answered hp ha, relayAnswered, if_neg hs]
      rcases hgone with h | h
      · rw [if_pos h]
      · rw [if_pos h, ite_self]
    case otherAnswer =>
      rw [relaySlot_answered hp ha, relayAnswered, if_neg hs, if_neg (by simp [hlist]), if_neg hrelay.ne]
      exact carry_below hhold hrelay

end Sys2Proof.Machine
end

section
/-! Joins as the race controller judges them, and the JOIN slot that brings one to the anchor (chapter 06, R97, R98). -/

namespace Sys2Proof.Machine

open Sys2Proof Sys2Proof.Safety

/-! ## Cars by owner and by state (R98) -/

section
variable {s : State} {c station seat : Nat}

theorem carOwnedBy_none (h : ∀ c < 8, (carAt s c).owner ≠ some { station := station, seat := seat }) :
    carOwnedBy s.race station seat = none :=
  List.find?_range_eq_none.2 fun c hc => by simpa [carAt] using h c hc

/-- The lowest car of an owner is the one found. -/
theorem carOwnedBy_some (hc : c < 8) (howner : (carAt s c).owner = some { station := station, seat := seat })
    (hlowest : ∀ b < c, (carAt s b).owner ≠ some { station := station, seat := seat }) :
    carOwnedBy s.race station seat = some c :=
  List.find?_range_eq_some.2 ⟨by simpa [carAt] using howner, List.mem_range.2 hc,
    fun b hb => by simpa [carAt] using hlowest b hb⟩

theorem lowestVacant_none (h : ∀ c < 8, (carAt s c).state ≠ .vacant) : lowestVacant s.race = none :=
  List.find?_range_eq_none.2 fun c hc => by simpa [carAt] using h c hc

theorem lowestVacant_some (hc : c < 8) (hvacant : (carAt s c).state = .vacant)
    (hlowest : ∀ b < c, (carAt s b).state ≠ .vacant) : lowestVacant s.race = some c :=
  List.find?_range_eq_some.2 ⟨by simpa [carAt] using hvacant, List.mem_range.2 hc,
    fun b hb => by simpa [carAt] using hlowest b hb⟩

end

/-! ## The steps of R98 -/

/-- A join is decided: its answer, and the race controller after it. -/
def JoinDecided (s : State) (j : JoinRequest) (a : JoinAnswer) (r : RaceControl) : Prop :=
  judgeJoin s.race (signature s) j = .decided a ∧ enterCar j a s.race = r

/-- A car given to a join that does not own it yet: ENTERED for the join's owner, with its tag and no race fields. -/
def enteredFor (station seat : Nat) (tag : List Byte) : Car :=
  { state := .entered, owner := some { station := station, seat := seat }, tag := tag, laps := 0, stamp := 0,
    crossing := 0, finish := none, reason := none, timer := none }

/-- No car is owned by the join's station and seat. -/
def OwnsNoCar (s : State) (j : JoinRequest) : Prop :=
  ∀ c < 8, (carAt s c).owner ≠ some { station := j.station, seat := j.seat }

section
variable {s : State} {j : JoinRequest}

theorem enterCar_vacant {c : Nat} (h : (carAt s c).state = .vacant) :
    enterCar j (.accepted c) s.race =
      { s.race with cars := s.race.cars.set c (enteredFor j.station j.seat j.tag) } := if_pos h

theorem enterCar_owned {c : Nat} (h : (carAt s c).state ≠ .vacant) : enterCar j (.accepted c) s.race = s.race :=
  if_neg h

theorem join_notGathering (h : s.race.phase ≠ .gathering) : JoinDecided s j (.declined .notGathering) s.race :=
  ⟨if_pos h, rfl⟩

theorem join_mismatch (hphase : s.race.phase = .gathering) (h : (j.title, j.revision) ≠ signature s) :
    JoinDecided s j (.declined .mismatch) s.race := by
  refine ⟨?_, rfl⟩
  rw [judgeJoin, if_neg (by simp [hphase]), if_pos h]

section
variable (hphase : s.race.phase = .gathering) (hsig : (j.title, j.revision) = signature s)
include hphase hsig

/-- In GATHERING and with the anchor's signature a join is judged by its cars and the admission mode. -/
theorem judgeJoin_gathering :
    judgeJoin s.race (signature s) j =
      match carOwnedBy s.race j.station j.seat with
      | some c => .decided (.accepted c)
      | none =>
        if setup s 2 = 0 then
          match lowestVacant s.race with
          | some c => .decided (.accepted c)
          | none => .decided (.declined .full)
        else if setup s 2 = 1 then
          let c := s.race.grid.getD (2 * j.station + j.seat) 8
          if 8 ≤ c then .decided (.declined .noEntry)
          else if (carAt s c).state = .vacant then .decided (.accepted c)
          else .decided (.declined .occupied)
        else .referred := by
  rw [judgeJoin, if_neg (by simp [hphase]), if_neg (by simp [hsig])]
  rfl

theorem join_owned {c : Nat} (hc : c < 8) (howner : (carAt s c).owner = some { station := j.station, seat := j.seat })
    (hlowest : ∀ b < c, (carAt s b).owner ≠ some { station := j.station, seat := j.seat })
    (hstate : (carAt s c).state ≠ .vacant) : JoinDecided s j (.accepted c) s.race := by
  refine ⟨?_, enterCar_owned hstate⟩
  rw [judgeJoin_gathering hphase hsig, carOwnedBy_some hc howner hlowest]

variable (hfree : OwnsNoCar s j)
include hfree

theorem join_firstFree (hmode : setup s 2 = 0) {c : Nat} (hc : c < 8) (hvacant : (carAt s c).state = .vacant)
    (hlowest : ∀ b < c, (carAt s b).state ≠ .vacant) :
    JoinDecided s j (.accepted c)
      { s.race with cars := s.race.cars.set c (enteredFor j.station j.seat j.tag) } := by
  refine ⟨?_, enterCar_vacant hvacant⟩
  simp only [judgeJoin_gathering hphase hsig, carOwnedBy_none hfree, if_pos hmode,
    lowestVacant_some hc hvacant hlowest]

theorem join_full (hmode : setup s 2 = 0) (hfull : ∀ c < 8, (carAt s c).state ≠ .vacant) :
    JoinDecided s j (.declined .full) s.race := by
  refine ⟨?_, rfl⟩
  simp only [judgeJoin_gathering hphase hsig, carOwnedBy_none hfree, if_pos hmode, lowestVacant_none hfull]

theorem join_noEntry (hmode : setup s 2 = 1) (hc : 8 ≤ s.race.grid.getD (2 * j.station + j.seat) 8) :
    JoinDecided s j (.declined .noEntry) s.race := by
  refine ⟨?_, rfl⟩
  simp only [judgeJoin_gathering hphase hsig, carOwnedBy_none hfree, if_neg (show ¬ setup s 2 = 0 by omega),
    if_pos hmode, if_pos hc]

theorem join_fixed (hmode : setup s 2 = 1) {c : Nat} (hgrid : s.race.grid.getD (2 * j.station + j.seat) 8 = c)
    (hc : c < 8) (hvacant : (carAt s c).state = .vacant) :
    JoinDecided s j (.accepted c)
      { s.race with cars := s.race.cars.set c (enteredFor j.station j.seat j.tag) } := by
  refine ⟨?_, enterCar_vacant hvacant⟩
  simp only [judgeJoin_gathering hphase hsig, carOwnedBy_none hfree, if_neg (show ¬ setup s 2 = 0 by omega),
    if_pos hmode, hgrid, if_neg hc.not_ge, if_pos hvacant]

theorem join_occupied (hmode : setup s 2 = 1) {c : Nat} (hgrid : s.race.grid.getD (2 * j.station + j.seat) 8 = c)
    (hc : c < 8) (hstate : (carAt s c).state ≠ .vacant) : JoinDecided s j (.declined .occupied) s.race := by
  refine ⟨?_, rfl⟩
  simp only [judgeJoin_gathering hphase hsig, carOwnedBy_none hfree, if_neg (show ¬ setup s 2 = 0 by omega),
    if_pos hmode, hgrid, if_neg hc.not_ge, if_neg hstate]

theorem join_referred (hmode : setup s 2 = 2) : judgeJoin s.race (signature s) j = .referred := by
  simp only [judgeJoin_gathering hphase hsig, carOwnedBy_none hfree, if_neg (show ¬ setup s 2 = 0 by omega),
    if_neg (show ¬ setup s 2 = 1 by omega)]

end

end

/-! ## The JOIN slot (R97, R99) -/

/-- The held-slot list names the slot at a place. -/
def StandsHeld (place : Nat) (m : SlotMsg) (s : State) : Prop :=
  m.hold = true ∧ ∃ h ∈ s.slots.held, h.place = place ∧ h.source = m.source ∧ h.tag = m.tag

theorem isHeld_iff (place : Nat) (m : SlotMsg) (s : State) : isHeld s.slots place m = true ↔ StandsHeld place m s := by
  simp [isHeld, StandsHeld, and_assoc]

section
variable {place : Nat} {m : SlotMsg} {s : State}

theorem anchorServe_join (hkind : m.kind = .join) (hheld : ¬ StandsHeld place m s) :
    anchorServe place m s = serveJoin place m s := by
  simp only [anchorServe, hkind]
  exact if_neg fun h => hheld ((isHeld_iff place m s).1 h)

theorem anchorServe_held (hkind : m.kind = .join) (hheld : StandsHeld place m s) :
    anchorServe place m s = serveHeld place s := by
  simp only [anchorServe, hkind]
  exact if_pos ((isHeld_iff place m s).2 hheld)

/-- A join whose station is not the slot's source, or of a seat above 1. -/
theorem serveJoin_mismatch (h : (joinOf m.body).station ≠ m.source ∨ 1 < (joinOf m.body).seat) :
    serveJoin place m s = (s, .answer (.declined .mismatch)) := if_pos h

/-- A join that is decided at once is answered with its outcome. -/
theorem serveJoin_decided {a : JoinAnswer} {r : RaceControl} (hstation : (joinOf m.body).station = m.source)
    (hseat : (joinOf m.body).seat ≤ 1) (h : JoinDecided s (joinOf m.body) a r) :
    serveJoin place m s = (s.withRace r, .answer (joinAnswerOutcome a)) := by
  rw [serveJoin, if_neg (by omega)]
  simp only [h.1, h.2]

end

/-- The payload of a join's answer: its car. -/
theorem joinAnswerOutcome_accepted (c : Nat) : joinAnswerOutcome (.accepted c) = .accepted [BitVec.ofNat 8 c] := by
  simp [joinAnswerOutcome, beBytes]

end Sys2Proof.Machine
end

section
/-! The tests of Join and Leave (chapters 04 and 06, R58, R96, R105). -/

namespace Sys2Proof.Machine

open Sys2Proof Sys2Proof.Safety

/-! ## Stations that post -/

/-- The station may post: it is configured, no OBSERVER, and its ring state lets it post (R58). -/
structure MayPost (s : State) : Prop where
  configured : configured s = true
  role : role s ≠ .observer
  ring : s.cyc.ring ≠ .deferred
  ready : ringReady s = true

section
variable {s : State}

theorem anchorRole_of_actingAnchor (h : actingAnchor s = true) : anchorRole s = true :=
  (Bool.and_eq_true _ _ ▸ h).1

theorem emitting_of_actingAnchor (h : actingAnchor s = true) : emitting s.cyc.ring = true :=
  (Bool.and_eq_true _ _ ▸ h).2

theorem role_of_anchorRole (h : anchorRole s = true) : role s = .anchor ∨ role s = .solo := by
  simpa [anchorRole] using h

theorem anchorRole_racer (h : role s = .racer) : anchorRole s = false := by simp [anchorRole, h]

/-- A station acting as anchor may post. -/
theorem mayPost_of_actingAnchor (h : actingAnchor s = true) : MayPost s where
  configured := configured_of_actingAnchor h
  role := by rcases role_of_anchorRole (anchorRole_of_actingAnchor h) with hr | hr <;> simp [hr]
  ring := fun hring => by simpa [hring, emitting] using emitting_of_actingAnchor h
  ready := by simp [ringReady, anchorRole_of_actingAnchor h, emitting_of_actingAnchor h]

/-- A MAPPED racer may post. -/
theorem mayPost_of_racer (hrole : role s = .racer) (hring : s.cyc.ring = .mapped) : MayPost s where
  configured := by simp [configured, hring]
  role := by simp [hrole]
  ring := by simp [hring]
  ready := by simp [ringReady, anchorRole_racer hrole, hring]

/-- A node that is not MAPPED may not post. -/
theorem ringReady_node (hrole : anchorRole s = false) (hring : s.cyc.ring ≠ .mapped) : ringReady s = false := by
  simp [ringReady, hrole, hring]

/-- A station acting as anchor needs no room in its urgent queue for its own joins and leaves. -/
theorem urgentRoom_anchor (h : anchorRole s = true) : urgentRoom s = true := by simp [urgentRoom, h]

/-- A node needs room in its urgent queue for a JOIN or LEAVE. -/
theorem urgentRoom_node (h : anchorRole s = false) : urgentRoom s = true ↔ s.slots.urgent.length < 4 := by
  simp [urgentRoom, h, queueRoom]

end

/-! ## The tests of Join (R96) -/

/-- The tests of Join. -/
def joinTests (seat : Nat) (s : State) : List (Bool × RefusalReason) :=
  posterTests true s ++
    [(seatFree s seat, .seat), (ringReady s, .notMapped), (ownJoinRoom s, .busy), (urgentRoom s, .queueFull)]

section
variable {s : State} {seat : Nat}

theorem seatFree_iff : seatFree s seat = true ↔ seat < seatCount s ∧ seatAt s seat = .unseated := by simp [seatFree]

theorem referralFree_iff : referralFree s = true ↔ s.race.referral = .free := by
  unfold referralFree
  split <;> simp_all

/-- A node needs no room in the referral record; the anchor does in REFERRED mode. -/
theorem ownJoinRoom_iff : ownJoinRoom s = true ↔ anchorRole s = false ∨ setup s 2 ≠ 2 ∨ s.race.referral = .free := by
  simp [ownJoinRoom, referralFree_iff, or_assoc]

/-- Join at a station that may post: the seat, the ring state, the referral record, then the queue. -/
theorem firstRefusal_join (hc : configured s = true) (hrole : role s ≠ .observer) (hring : s.cyc.ring ≠ .deferred) :
    firstRefusal (joinTests seat s) =
      if seatFree s seat = true then
        if ringReady s = true then
          if ownJoinRoom s = true then if urgentRoom s = true then none else some .queueFull
          else some .busy
        else some .notMapped
      else some .seat := by
  rw [joinTests, firstRefusal_posterTests_append hc hrole hring]
  rfl

/-- A Join that fails a test is refused with the reason of the first. -/
theorem refused_join {r : RefusalReason} {w : List Byte} (htake : canTake s = true)
    (h : firstRefusal (joinTests seat s) = some r) : Refused .join (.join true seat w) r s :=
  congrArg Host.Outcome.next (takeCommand_refused .join (tests := joinTests seat) (fun _ => joinAct seat w) s htake h)

/-- A Join that passes its tests is acted on. -/
theorem exec_join (w : List Byte) (htake : canTake s = true) (h : firstRefusal (joinTests seat s) = none) :
    exec (.join true seat w) s =
      .next (giveReply (.command .join) (joinAct seat w (dropFrame s)).2 (joinAct seat w (dropFrame s)).1) :=
  congrArg Host.Outcome.next (takeCommand_passed .join (tests := joinTests seat) (fun _ => joinAct seat w) s htake h)

end

/-! ## The tests of Leave (R105) -/

/-- The tests of Leave. -/
def leaveTests (seat : Nat) (s : State) : List (Bool × RefusalReason) :=
  posterTests true s ++
    [(seatTaken s seat, .seat), (!leavePending s seat, .busy), (ringReady s, .notMapped), (urgentRoom s, .queueFull)]

section
variable {s : State} {seat : Nat}

theorem seatTaken_iff : seatTaken s seat = true ↔ seat < seatCount s ∧ ∃ c w, seatAt s seat = .seated c w := by
  unfold seatTaken
  cases seatAt s seat <;> simp

/-- Leave at a station that may post: the seat, a LEAVE pending, the ring state, then the queue. -/
theorem firstRefusal_leave (hc : configured s = true) (hrole : role s ≠ .observer) (hring : s.cyc.ring ≠ .deferred) :
    firstRefusal (leaveTests seat s) =
      if seatTaken s seat = true then
        if leavePending s seat = false then
          if ringReady s = true then if urgentRoom s = true then none else some .queueFull
          else some .notMapped
        else some .busy
      else some .seat := by
  rw [leaveTests, firstRefusal_posterTests_append hc hrole hring]
  simp only [firstRefusal, Bool.not_eq_true']

/-- A Leave that fails a test is refused with the reason of the first. -/
theorem refused_leave {r : RefusalReason} (htake : canTake s = true)
    (h : firstRefusal (leaveTests seat s) = some r) : Refused .leave (.leave true seat) r s :=
  congrArg Host.Outcome.next (takeCommand_refused .leave (tests := leaveTests seat) (fun _ => leaveAct seat) s htake h)

/-- A Leave that passes its tests is acted on. -/
theorem exec_leave (htake : canTake s = true) (h : firstRefusal (leaveTests seat s) = none) :
    exec (.leave true seat) s =
      .next (giveReply (.command .leave) (leaveAct seat (dropFrame s)).2 (leaveAct seat (dropFrame s)).1) :=
  congrArg Host.Outcome.next (takeCommand_passed .leave (tests := leaveTests seat) (fun _ => leaveAct seat) s htake h)

end

end Sys2Proof.Machine
end

section
/-! Joins: the Join command at a node and at the anchor, the seat mirror, and the JOIN slot (chapter 06, R96 to R98,
R103, R104). -/

namespace Sys2Proof.Machine

open Sys2Proof Sys2Proof.Safety

/-! ## The anchor's own join (R96, R98) -/

section
variable {s : State} {j : JoinRequest}

/-- A join decided at once is delivered to the anchor's own seat. -/
theorem ownJoin_decided {a : JoinAnswer} {r : RaceControl} (h : JoinDecided s j a r) :
    ownJoin j s = joinOutcome j.seat (joinAnswerOutcome a) (s.withRace r) := by
  simp only [ownJoin, h.1, h.2]

/-- A join not decided at once takes the FREE referral record. -/
theorem ownJoin_referred (h : judgeJoin s.race (signature s) j = .referred) (hfree : s.race.referral = .free) :
    ownJoin j s = openReferral j .own s := by
  simp only [ownJoin, h, hfree]

/-- A join accepted seats the anchor's own seat in the car. -/
theorem ownJoin_accepted {c : Nat} {r : RaceControl} {w : List Byte} (h : JoinDecided s j (.accepted c) r) (hc : c < 8)
    (hw : seatAt s j.seat = .requested w) :
    seatAt (ownJoin j s) j.seat = .seated c w ∧ (ownJoin j s).race = r := by
  rw [ownJoin_decided h]
  exact ⟨seatAt_joinOutcome_car (s := s.withRace r) hw (namedCar_accepted hc), by simp⟩

/-- A join declined makes the anchor's own seat UNSEATED. -/
theorem ownJoin_declined {why : Decline} {r : RaceControl} {w : List Byte} (h : JoinDecided s j (.declined why) r)
    (hw : seatAt s j.seat = .requested w) :
    seatAt (ownJoin j s) j.seat = .unseated ∧ (ownJoin j s).race = r := by
  rw [ownJoin_decided h]
  exact ⟨seatAt_joinOutcome_none (s := s.withRace r) hw (namedCar_declined why), by simp⟩

/-- A referral opened leaves the seats. -/
theorem openReferral_seat (j : JoinRequest) (carrier : Carrier) (s : State) :
    (openReferral j carrier s).seat = s.seat := by
  simp [openReferral, queueReferral]

theorem openReferral_race (j : JoinRequest) (carrier : Carrier) (s : State) :
    (openReferral j carrier s).race = { s.race with referral := .pending j carrier (setup s 3 * 1000000) } := by
  simp [openReferral, queueReferral, referralMicros]

/-- Of the seat unit the anchor's own join changes the seat records alone. -/
theorem ownJoin_seat (j : JoinRequest) (s : State) :
    (ownJoin j s).seat = { s.seat with seats := (ownJoin j s).seat.seats } := by
  unfold ownJoin
  split
  · rw [joinOutcome_eq]; rfl
  · split
    · rw [openReferral_seat]
    · rfl

end

section
variable {s : State} (seat : Nat) (w : List Byte)

/-- A node queues its JOIN, and its seat is REQUESTED. -/
theorem joinAct_node (h : anchorRole s = false) :
    joinAct seat w s =
      (queuedUrgent .join (anchorAddress s) (joinPayload (joinRequest s seat w)) seat (setSeat seat (.requested w) s),
        .taken (.tag (nextTag s.slots .join))) := by
  simp only [joinAct, h, Bool.false_eq_true, if_false, postUrgent_eq]
  rfl

/-- The anchor processes its own join at once, with its seat REQUESTED and the tag counter advanced. -/
theorem joinAct_anchor (h : anchorRole s = true) :
    joinAct seat w s =
      (ownJoin (joinRequest s seat w)
          ((setSeat seat (.requested w) s).withSlots (advanceTag (nextTag s.slots .join) s.slots)),
        .taken (.tag (nextTag s.slots .join))) := by
  simp only [joinAct, h, if_true]
  rfl

end

/-! ## The seat mirror (R104) -/

section
variable {l : List CarSummary} {s : State} {seat c d : Nat} {w : List Byte}

theorem showsOwned_iff : showsOwned l c (address s) seat = true ↔ ShowsSeat l c seat s := by
  simp [showsOwned, and_assoc]

/-- A summary of eight cars shows no car above 7 owned. -/
theorem lt_of_showsSeat (hlength : l.length = 8) (h : ShowsSeat l c seat s) : c < 8 := by
  by_contra hc
  refine h.1 ?_
  rw [summaryAt, List.getD_eq_default _ _ (by omega)]
  rfl

theorem ownedCar_none (h : ∀ c < 8, ¬ ShowsSeat l c seat s) : ownedCar l (address s) seat = none :=
  List.find?_range_eq_none.2 fun c hc => by simpa [← showsOwned_iff] using h c hc

/-- The lowest car shown is the one taken. -/
theorem ownedCar_some (hc : c < 8) (hshown : ShowsSeat l c seat s) (hlowest : ∀ b < c, ¬ ShowsSeat l b seat s) :
    ownedCar l (address s) seat = some c :=
  List.find?_range_eq_some.2 ⟨showsOwned_iff.2 hshown, List.mem_range.2 hc,
    fun b hb => by simpa [← showsOwned_iff] using hlowest b hb⟩

/-- A SEATED seat whose car is not shown is released. -/
theorem mirrorRelease_hidden (h : ¬ ShowsSeat l d seat s) :
    mirrorRelease l (address s) seat (.seated d w) = .unseated :=
  if_neg (mt showsOwned_iff.1 h)

/-- A SEATED seat whose car is shown is kept. -/
theorem mirrorRelease_shown (h : ShowsSeat l d seat s) :
    mirrorRelease l (address s) seat (.seated d w) = .seated d w :=
  if_pos (showsOwned_iff.2 h)

end

/-! ## The JOIN slot (R98) -/

section
variable {place : Nat} {syms : List RxSym} {s : State} {m : SlotMsg}
  (hp : parseSlot syms = some (some m)) (ha : m.answered = false) (hlist : lists s.survey.map m.source = true)
  (hd : m.dest = address s) (hkind : m.kind = .join) (hrelay : m.relay < 15) (hheld : ¬ StandsHeld place m s)
include hp ha hlist hd hkind hrelay hheld

/-- A JOIN slot of another station's seat, or of a seat above 1, is answered MISMATCH. -/
theorem relaySlot_joinMismatch (h : (joinOf m.body).station ≠ m.source ∨ 1 < (joinOf m.body).seat) :
    relaySlot place syms s = (some { answerSlot m (.declined .mismatch) with relay := m.relay + 1 }, s) :=
  relaySlot_answer_below hp ha hlist hd hrelay ((anchorServe_join hkind hheld).trans (serveJoin_mismatch h))

/-- A JOIN slot decided at once is answered with its outcome. -/
theorem relaySlot_joinDecided {a : JoinAnswer} {r : RaceControl} (hstation : (joinOf m.body).station = m.source)
    (hseat : (joinOf m.body).seat ≤ 1) (h : JoinDecided s (joinOf m.body) a r) :
    relaySlot place syms s =
      (some { answerSlot m (joinAnswerOutcome a) with relay := m.relay + 1 }, s.withRace r) :=
  relaySlot_answer_below hp ha hlist hd hrelay
    ((anchorServe_join hkind hheld).trans (serveJoin_decided hstation hseat h))

end

/-- The answer of a join accepted: the car, and the payload padded to 24 bytes. -/
theorem answerSlot_joinAccepted (m : SlotMsg) (c : Nat) :
    answerSlot m (joinAnswerOutcome (.accepted c)) =
      { m with answered := true, hold := false, outcome := 1, len := 1,
               payload := BitVec.ofNat 8 c :: List.replicate 23 0 } := by
  rw [joinAnswerOutcome_accepted, answerSlot_accepted m (by simp)]
  rfl

/-- Settles O44: the commands by the first of their tests that fails, the anchor's joins by the steps of R98. -/
theorem joinASeat : Obligations.JoinASeat := by
  refine ⟨?node, ?refused, ?own, ?mirror, ?slot⟩
  case node =>
    intro s seat w htake hrole hring hseat hunseated
    have hpost := mayPost_of_racer hrole hring
    have hanchor := anchorRole_racer hrole
    have htests := (firstRefusal_join (s := dropFrame s) (seat := seat) hpost.configured hpost.role hpost.ring).trans
      ((if_pos (seatFree_iff.2 ⟨hseat, hunseated⟩)).trans ((if_pos hpost.ready).trans
        (if_pos (ownJoinRoom_iff.2 (.inl hanchor)))))
    refine ⟨fun hroom => ?queued, fun hfull => refused_join htake (htests.trans (if_neg ?_))⟩
    case queued =>
      rw [exec_join w htake (htests.trans (if_pos ((urgentRoom_node hanchor).2 hroom))),
        joinAct_node seat w (s := dropFrame s) hanchor]
      rfl
    · exact fun h => absurd ((urgentRoom_node (s := dropFrame s) hanchor).1 h) hfull.not_gt
  case refused =>
    rintro s seat w ⟨htake, hc⟩ hrole hring
    have htests := firstRefusal_join (s := dropFrame s) (seat := seat) hc hrole hring
    refine ⟨fun h => refused_join htake (htests.trans (if_neg fun hfree => ?_)),
      fun hseat hunseated hnode hunmapped => refused_join htake
        (htests.trans ((if_pos (seatFree_iff.2 ⟨hseat, hunseated⟩)).trans (if_neg ?_)))⟩
    · obtain ⟨hseat, hunseated⟩ := seatFree_iff.1 hfree
      exact h.elim hseat.not_ge fun h => h hunseated
    · rw [ringReady_node (s := dropFrame s) hnode hunmapped]
      simp
  case own =>
    rintro s seat w ⟨htake, hact⟩ hseat hlength - hunseated own entered asked free
    have hpost := mayPost_of_actingAnchor hact
    have hanchor := anchorRole_of_actingAnchor hact
    have htests := (firstRefusal_join (s := dropFrame s) (seat := seat) hpost.configured hpost.role hpost.ring).trans
      ((if_pos (seatFree_iff.2 ⟨hseat, hunseated⟩)).trans (if_pos hpost.ready))
    refine ⟨fun hroom => ?taken, fun hmode hbusy => refused_join htake (htests.trans (if_neg fun h => ?_))⟩
    case taken =>
      have hpass := htests.trans ((if_pos (ownJoinRoom_iff.2 (.inr hroom))).trans (if_pos (urgentRoom_anchor hanchor)))
      have hexec : exec (.join true seat w) s =
          .next (giveReply (.command .join) (.taken (.tag (nextTag s.slots .join)))
            (ownJoin asked ((setSeat seat (.requested w) (dropFrame s)).withSlots
              (advanceTag (nextTag s.slots .join) s.slots)))) := by
        rw [exec_join w htake hpass, joinAct_anchor seat w (s := dropFrame s) hanchor]
        rfl
      generalize hv : (setSeat seat (.requested w) (dropFrame s)).withSlots
        (advanceTag (nextTag s.slots .join) s.slots) = v at hexec
      have hw : seatAt v seat = .requested w := by
        rw [← hv]; exact seatAt_setSeat (s := dropFrame s) hlength _
      have hdecided {a : JoinAnswer} {r : RaceControl} (h : JoinDecided s asked a r) : JoinDecided v asked a r := by
        rw [← hv]; exact h
      refine ⟨_, _, hexec, ?slots, ?time, ?survey, ?settings, ?seats, fun hphase => ?idle, fun hphase => ?gathering⟩
      case slots | time | survey | settings => simp only [ownJoin_leaves]; rw [← hv]; rfl
      case seats => rw [ownJoin_seat, ← hv]; rfl
      case idle => exact ownJoin_declined (hdecided (join_notGathering hphase)) hw
      case gathering =>
        refine ⟨fun c hc howner hlowest hstate => ?_, fun hfree hmode c hc hvacant hlowest => ?_,
          fun hfree hmode hfull => ?_, fun hfree hmode => ?grid, fun hfree hmode => ?referred⟩
        · exact ownJoin_accepted (hdecided (join_owned (j := asked) hphase rfl hc howner hlowest hstate)) hc hw
        · exact ownJoin_accepted
            (hdecided (join_firstFree (j := asked) hphase rfl hfree hmode hc hvacant hlowest)) hc hw
        · exact ownJoin_declined (hdecided (join_full (j := asked) hphase rfl hfree hmode hfull)) hw
        case grid =>
          intro c
          split
          · next h =>
            exact ownJoin_accepted (hdecided (join_fixed (j := asked) hphase rfl hfree hmode rfl h.1 h.2)) h.1 hw
          · next h =>
            by_cases hc : 8 ≤ c
            · exact ownJoin_declined (hdecided (join_noEntry (j := asked) hphase rfl hfree hmode hc)) hw
            · have hstate := fun hvacant => h ⟨not_le.1 hc, hvacant⟩
              exact ownJoin_declined
                (hdecided (join_occupied (j := asked) hphase rfl hfree hmode rfl (not_le.1 hc) hstate)) hw
        case referred =>
          have hfreeRecord : s.race.referral = .free := hroom.resolve_left fun h => h hmode
          have hopened : ownJoin asked v = openReferral asked .own v :=
            ownJoin_referred (by rw [← hv]; exact join_referred (s := s) (j := asked) hphase rfl hfree hmode)
              (by rw [← hv]; exact hfreeRecord)
          rw [hopened, openReferral_race, seatAt, openReferral_seat]
          exact ⟨hw, by rw [← hv]; rfl⟩
    · rcases ownJoinRoom_iff.1 h with hnode | hmode' | hfree
      · rw [show anchorRole (dropFrame s) = true from hanchor] at hnode
        cases hnode
      · exact hmode' hmode
      · exact hbusy hfree
  case mirror =>
    intro l seat s hlength mirrored
    refine ⟨fun hnone => ⟨fun c w hseated hsummary => ?released, fun hother => ?untouched⟩,
      fun c hc hshown hlowest => ⟨fun w hrequested => ?taken, fun d w hseated hd => ?kept, fun h => ?free⟩⟩
    case released =>
      have hhidden : ¬ ShowsSeat l c seat s := fun h => hnone c (lt_of_showsSeat hsummary h) h
      simp only [mirrorSeat, ownedCar_none hnone, hseated, mirrorRelease_hidden hhidden]
      rfl
    case untouched =>
      simp only [mirrorSeat, ownedCar_none hnone]
      refine if_pos ?_
      cases h : seatAt s seat with
      | unseated | requested w => rfl
      | seated c w => exact absurd h (hother c w)
    case taken =>
      simp only [mirrorSeat, ownedCar_some hc hshown hlowest, hrequested, mirrorRelease]
      rfl
    case kept =>
      simp only [mirrorSeat, ownedCar_some hc hshown hlowest, hseated, mirrorRelease_shown hd]
      rfl
    case free =>
      have hreleased : mirrorRelease l (address s) seat (seatAt s seat) = .unseated := by
        rcases h with h | ⟨d, w, h, hhidden⟩
        · rw [h]; rfl
        · rw [h, mirrorRelease_hidden hhidden]
      refine ⟨(freePlayerTag s).1, rfl, ?_⟩
      simp only [mirrorSeat, ownedCar_some hc hshown hlowest, hreleased]
      rfl
  case slot =>
    rintro place syms s m hp ha hkind hd hlist hrelay - hnotHeld j own answered declined accepted racer entered free
    have hheld : ¬ StandsHeld place m s := fun ⟨hhold, h, hmem, hplace⟩ => hnotHeld hhold h hmem hplace
    refine ⟨relaySlot_joinMismatch hp ha hlist hd hkind hrelay hheld, fun hstation hseat => ?known⟩
    have hdeclined {why : Decline} (h : JoinDecided s j (.declined why) s.race) :
        relaySlot place syms s = declined why :=
      relaySlot_joinDecided hp ha hlist hd hkind hrelay hheld hstation hseat h
    have haccepted {c : Nat} {r : RaceControl} (h : JoinDecided s j (.accepted c) r) :
        relaySlot place syms s = accepted c (s.withRace r) := by
      rw [relaySlot_joinDecided hp ha hlist hd hkind hrelay hheld hstation hseat h, answerSlot_joinAccepted]
    have howner : ({ station := j.station, seat := j.seat } : Owner) = own := by rw [hstation]
    have henters (c : Nat) :
        s.withRace { s.race with cars := s.race.cars.set c (enteredFor j.station j.seat j.tag) } = entered c := by
      rw [enteredFor, howner]; rfl
    refine ⟨fun hphase => hdeclined (join_notGathering hphase),
      fun hphase hsig => hdeclined (join_mismatch hphase hsig),
      fun hphase hsig => ⟨fun c hc hown hlowest hstate => ?_, fun hfree hmode => ⟨fun c hc hvacant hlowest => ?_,
        fun hfull => ?_⟩, fun hfree hmode => ?grid⟩⟩
    · rw [← howner] at hown hlowest
      exact haccepted (join_owned hphase hsig hc hown hlowest hstate)
    all_goals have hno : OwnsNoCar s j := by rw [OwnsNoCar, howner]; exact hfree
    · rw [← henters]
      exact haccepted (join_firstFree hphase hsig hno hmode hc hvacant hlowest)
    · exact hdeclined (join_full hphase hsig hno hmode hfull)
    case grid =>
      intro c
      have hgrid : s.race.grid.getD (2 * j.station + j.seat) 8 = c := by rw [hstation]
      refine ⟨fun hc => hdeclined (join_noEntry hphase hsig hno hmode (hgrid.symm ▸ hc)), fun hc hvacant => ?_,
        fun hc hstate => hdeclined (join_occupied hphase hsig hno hmode hgrid hc hstate)⟩
      rw [← henters]
      exact haccepted (join_fixed hphase hsig hno hmode hgrid hc hvacant)

end Sys2Proof.Machine
end

section
/-! Leaves: the Leave command at a node and at the anchor, and the LEAVE slot (chapter 06, R105). -/

namespace Sys2Proof.Machine

open Sys2Proof Sys2Proof.Safety

/-! ## One car of the table replaced -/

section
variable {s t : State} {c : Nat} {k : Car} (h : t.race.cars = s.race.cars.set c k)
include h

theorem carAt_of_set (hc : c < s.race.cars.length) : carAt t c = k := by
  simp [carAt, h, List.getD_eq_getElem?_getD, hc]

theorem carAt_of_set_ne {b : Nat} (hb : b ≠ c) : carAt t b = carAt s b := by
  simp [carAt, h, List.getD_eq_getElem?_getD, List.getElem?_set_ne hb.symm]

end

/-! ## A car retired (R92, R144, R147, R149) -/

/-- A second confirmation test against the same stamps changes nothing. -/
theorem confirmFrom_idem (stamps : List Micros) (l : List FinishEntry) :
    confirmFrom stamps (confirmFrom stamps l) = confirmFrom stamps l := by
  induction l with
  | nil => rfl
  | cons e rest ih =>
    by_cases h : (e.confirmed || stamps.all fun t => decide (e.time.toNat < t.toNat)) = true
    · simp [confirmFrom, h, ih]
    · simp [confirmFrom, h]

/-- The state behind a car's retirement and its PLACING report, before the test for the end of the race. -/
def retiredBeforeEnd (why : RetireReason) (c : Nat) (s : State) : State :=
  queuePlacing .retirement s.race
    (s.withRace (confirmList (setCar c (retiredCar why (carAt s c)) s.race)))

theorem retireCar_eq (why : RetireReason) (c : Nat) (s : State) :
    retireCar why c s = testRaceEnd (retiredBeforeEnd why c s) := rfl

section
variable (why : RetireReason) (c : Nat) (s : State)

@[simp] theorem retiredBeforeEnd_race :
    (retiredBeforeEnd why c s).race = confirmList (setCar c (retiredCar why (carAt s c)) s.race) := by
  simp [retiredBeforeEnd, queuePlacing]

@[simp] theorem retiredBeforeEnd_time : (retiredBeforeEnd why c s).time = s.time := by
  simp [retiredBeforeEnd, queuePlacing]

theorem retiredBeforeEnd_port :
    (retiredBeforeEnd why c s).port =
      (queueEvent (placingReport .retirement s.race (retiredBeforeEnd why c s).race) s).port := by
  rw [retiredBeforeEnd_race]
  exact queueEvent_port _ _ _ rfl

/-- The test for the end of a race leaves the cars and, behind a confirmation test, the finish list. -/
theorem placingReport_testRaceEnd :
    placingReport .retirement s.race (retireCar why c s).race =
      placingReport .retirement s.race (retiredBeforeEnd why c s).race := by
  rw [retireCar_eq]
  by_cases h : ((retiredBeforeEnd why c s).race.phase = .running ∨ (retiredBeforeEnd why c s).race.phase = .closing) ∧
      racingCount (retiredBeforeEnd why c s).race = 0
  · have hfinish (r : RaceControl) : confirmFrom (racingStamps (confirmList r)) (confirmList r).finish =
        (confirmList r).finish := confirmFrom_idem _ _
    rw [testRaceEnd_ends h.1 ((racingCount_eq_zero_iff _).1 h.2), raceEnded_race, retiredBeforeEnd_race, hfinish]
    rfl
  · rw [testRaceEnd, if_neg h]

/-- A car retired gives the PLACING report, and the PHASE report of the race's end when it was the last RACING. -/
theorem retireCar_port : (retireCar why c s).port = (retirementReports (retireCar why c s) s).port := by
  have hbefore : (retiredBeforeEnd why c s).race.phase = s.race.phase := by rw [retiredBeforeEnd_race]; rfl
  rw [retirementReports, placingReport_testRaceEnd, retireCar_eq]
  by_cases h : ((retiredBeforeEnd why c s).race.phase = .running ∨ (retiredBeforeEnd why c s).race.phase = .closing) ∧
      racingCount (retiredBeforeEnd why c s).race = 0
  · have hphase : s.race.phase ≠ .results := by
      rw [← hbefore]
      intro hp
      rw [hp] at h
      simp at h
    rw [testRaceEnd_ends h.1 ((racingCount_eq_zero_iff _).1 h.2), if_pos ⟨hphase, by rw [raceEnded_race]⟩,
      raceEnded_port, raceEnded_time, retiredBeforeEnd_time]
    exact queueEvent_port _ _ _ (retiredBeforeEnd_port why c s)
  · have hstays : ¬ (s.race.phase ≠ .results ∧ (retiredBeforeEnd why c s).race.phase = .results) := by
      rw [hbefore]
      exact fun hend => hend.1 hend.2
    rw [testRaceEnd, if_neg h, if_neg hstays, retiredBeforeEnd_port]

/-- A retirement changes its own car in the car table. -/
theorem retireCar_cars : (retireCar why c s).race.cars = s.race.cars.set c (retiredCar why (carAt s c)) := by
  rw [retireCar_eq, testRaceEnd]
  split
  · simp [confirmList, setCar, queuePhase]
  · rw [retiredBeforeEnd_race]
    rfl

end

/-- The reports of a retirement depend on the race and the race time that it leaves. -/
theorem retirementReports_congr {a b : State} (hrace : a.race = b.race) (htime : a.time = b.time) (s : State) :
    retirementReports a s = retirementReports b s := by
  simp only [retirementReports, hrace, htime]

/-! ## The table of R105 -/

theorem leavePayload_eq (c : Nat) (k : CarState) :
    leavePayload c k = [BitVec.ofNat 8 c, BitVec.ofNat 8 (carStateCode k)] := by
  simp [leavePayload, beBytes]

section
variable {s : State} {station seat c : Nat}

theorem processLeave_none (h : ∀ c < 8, (carAt s c).owner ≠ some { station := station, seat := seat }) :
    processLeave station seat s = (s, .accepted (leavePayload 8 .vacant)) := by
  simp only [processLeave, carOwnedBy_none h]

section
variable (hc : c < 8) (howner : (carAt s c).owner = some { station := station, seat := seat })
  (hlowest : ∀ b < c, (carAt s b).owner ≠ some { station := station, seat := seat })
include hc howner hlowest

theorem processLeave_entered (hphase : s.race.phase ≠ .results) (h : (carAt s c).state = .entered) :
    processLeave station seat s =
      (s.withRace (setCar c Car.vacant s.race), .accepted (leavePayload c .vacant)) := by
  simp only [processLeave, carOwnedBy_some hc howner hlowest, if_pos (And.intro hphase h)]

theorem processLeave_racing (hphase : s.race.phase ≠ .results) (h : (carAt s c).state = .racing) :
    processLeave station seat s = (retireCar .withdrawn c s, .accepted (leavePayload c .retired)) := by
  simp only [processLeave, carOwnedBy_some hc howner hlowest,
    if_neg (show ¬ (s.race.phase ≠ .results ∧ (carAt s c).state = .entered) by simp [h]), if_pos (And.intro hphase h)]

theorem processLeave_stays
    (h : s.race.phase = .results ∨ ((carAt s c).state ≠ .entered ∧ (carAt s c).state ≠ .racing)) :
    processLeave station seat s = (s, .accepted (leavePayload c (carAt s c).state)) := by
  have hnot {k : CarState} (hk : k = .entered ∨ k = .racing) : ¬ (s.race.phase ≠ .results ∧ (carAt s c).state = k) := by
    rintro ⟨hphase, hstate⟩
    rcases hk with rfl | rfl
    · exact h.elim hphase fun h => h.1 hstate
    · exact h.elim hphase fun h => h.2 hstate
  simp only [processLeave, carOwnedBy_some hc howner hlowest, if_neg (hnot (.inl rfl)), if_neg (hnot (.inr rfl))]

end

end

/-! ## The SEATS report of a LEAVE outcome (R105, R106) -/

/-- The car that a leave's payload names: 8 names none. -/
theorem namedCar_leavePayload {c : Nat} (hc : c ≤ 8) (k : CarState) :
    namedCar (.accepted (leavePayload c k)) = if c < 8 then some c else none := by
  have hmod : c % 256 = c := Nat.mod_eq_of_lt (by omega)
  simp [leavePayload_eq, namedCar, hmod]

theorem carAt_leaveOutcome (seat : Nat) (out : MsgOutcome) (s : State) (c : Nat) :
    carAt (leaveOutcome seat out s) c = carAt s c := by simp [carAt]

/-- A leave's answer is reported with its car and the seats as they stand, behind what the port holds. -/
theorem leaveOutcome_port {s t v : State} {seat c : Nat} {k : CarState} (hc : c ≤ 8) (hseat : t.seat = s.seat)
    (hport : t.port = v.port) :
    (leaveOutcome seat (.accepted (leavePayload c k)) t).port =
      (queueEvent
        (.seats .leaveOutcome (some seat)
          (some (.accepted [BitVec.ofNat 8 c, BitVec.ofNat 8 (carStateCode k)]))
          (if c < 8 then some c else none) s.seat.seats s.seat.ready s.seat.attentionPending
          s.seat.attentionCode) v).port := by
  rw [leaveOutcome, queueSeats, namedCar_leavePayload hc, leavePayload_eq, hseat]
  exact queueEvent_port _ _ _ hport

/-! ## The Leave command -/

section
variable {s : State} (seat : Nat)

/-- A node queues its LEAVE. -/
theorem leaveAct_node (h : anchorRole s = false) :
    leaveAct seat s =
      (queuedUrgent .leave (anchorAddress s) [BitVec.ofNat 8 (address s), BitVec.ofNat 8 seat] seat s,
        .taken (.tag (nextTag s.slots .leave))) := by
  have hpayload : leaveRequest s seat = [BitVec.ofNat 8 (address s), BitVec.ofNat 8 seat] := by
    simp [leaveRequest, beBytes]
  simp only [leaveAct, h, Bool.false_eq_true, if_false, hpayload, postUrgent_eq]

/-- The anchor processes its own leave at once. -/
theorem leaveAct_anchor (h : anchorRole s = true) :
    leaveAct seat s =
      (leaveOutcome seat (processLeave (address s) seat s).2 (processLeave (address s) seat s).1, .taken .none) := by
  simp only [leaveAct, h, if_true]

end

/-! ## The LEAVE slot (R105) -/

section
variable {place : Nat} {s : State} {m : SlotMsg}

theorem anchorServe_leave (hkind : m.kind = .leave) : anchorServe place m s = serveLeave m s := by
  simp only [anchorServe, hkind]

/-- A leave whose station is not the slot's source, or of a seat above 1. -/
theorem serveLeave_mismatch (h : byteAt m.body 0 ≠ m.source ∨ 1 < byteAt m.body 1) :
    serveLeave m s = (s, .answer (.declined .mismatch)) := if_pos h

/-- Any other leave is answered with its outcome. -/
theorem serveLeave_processed {t : State} {out : MsgOutcome} (hstation : byteAt m.body 0 = m.source)
    (hseat : byteAt m.body 1 ≤ 1) (h : processLeave m.source (byteAt m.body 1) s = (t, out)) :
    serveLeave m s = (t, .answer out) := by
  rw [serveLeave, if_neg (by omega), h]

end

/-- The answer of a leave: the car and its state, and the payload padded to 24 bytes. -/
theorem answerSlot_leave (m : SlotMsg) (c : Nat) (k : CarState) :
    answerSlot m (.accepted (leavePayload c k)) =
      { m with answered := true, hold := false, outcome := 1, len := 2,
               payload := BitVec.ofNat 8 c :: BitVec.ofNat 8 (carStateCode k) :: List.replicate 22 0 } := by
  rw [leavePayload_eq, answerSlot_accepted m (by simp)]
  rfl

/-- Settles O45: the commands by the first of their tests that fails, the anchor's leaves by the table of R105. -/
theorem leaveASeat : Obligations.LeaveASeat := by
  refine ⟨?node, ?refused, ?own, ?slot⟩
  case node =>
    intro s seat c w htake hrole hring hseat hseated
    have hpost := mayPost_of_racer hrole hring
    have hanchor := anchorRole_racer hrole
    have htests := (firstRefusal_leave (s := dropFrame s) (seat := seat) hpost.configured hpost.role hpost.ring).trans
      (if_pos (seatTaken_iff.2 ⟨hseat, c, w, hseated⟩))
    have hready (hfree : leavePending s seat = false) := htests.trans ((if_pos hfree).trans (if_pos hpost.ready))
    refine ⟨fun hfree hroom => ?queued, fun hpending => refused_leave htake (htests.trans (if_neg ?_)),
      fun hfree hfull => refused_leave htake ((hready hfree).trans (if_neg fun h => ?_))⟩
    case queued =>
      rw [exec_leave htake ((hready hfree).trans (if_pos ((urgentRoom_node hanchor).2 hroom))),
        leaveAct_node seat (s := dropFrame s) hanchor]
      rfl
    · rw [show leavePending (dropFrame s) seat = true from hpending]
      simp
    · exact absurd ((urgentRoom_node (s := dropFrame s) hanchor).1 h) hfull.not_gt
  case refused =>
    rintro s seat ⟨htake, hc⟩ hrole hring
    have htests := firstRefusal_leave (s := dropFrame s) (seat := seat) hc hrole hring
    refine ⟨fun h => refused_leave htake (htests.trans (if_neg fun htaken => ?_)), fun c w hseat hseated =>
      ⟨fun hpending => refused_leave htake (htests.trans ((if_pos (seatTaken_iff.2 ⟨hseat, c, w, hseated⟩)).trans
          (if_neg ?_))),
        fun hfree hnode hunmapped => refused_leave htake (htests.trans
          ((if_pos (seatTaken_iff.2 ⟨hseat, c, w, hseated⟩)).trans ((if_pos hfree).trans (if_neg ?_))))⟩⟩
    · obtain ⟨hseat, c, w, hseated⟩ := seatTaken_iff.1 htaken
      exact h.elim hseat.not_ge fun h => h c w hseated
    · rw [show leavePending (dropFrame s) seat = true from hpending]
      simp
    · rw [ringReady_node (s := dropFrame s) hnode hunmapped]
      simp
  case own =>
    rintro s seat k w ⟨htake, hact⟩ hseat hseated hfree hlength own told
    have hpost := mayPost_of_actingAnchor hact
    have hanchor := anchorRole_of_actingAnchor hact
    have hpass := (firstRefusal_leave (s := dropFrame s) (seat := seat) hpost.configured hpost.role hpost.ring).trans
      ((if_pos (seatTaken_iff.2 ⟨hseat, k, w, hseated⟩)).trans ((if_pos hfree).trans ((if_pos hpost.ready).trans
        (if_pos (urgentRoom_anchor hanchor)))))
    have hexec : exec (.leave true seat) s =
        .next (giveReply (.command .leave) (.taken .none)
          (leaveOutcome seat (processLeave (address s) seat (dropFrame s)).2
            (processLeave (address s) seat (dropFrame s)).1)) := by
      rw [exec_leave htake hpass, leaveAct_anchor seat (s := dropFrame s) hanchor]
      rfl
    refine ⟨_, hexec, by simp, by simp, by simp, by simp, fun hnone => ?none, fun c hc howner hlowest => ?owned⟩
    case none =>
      rw [processLeave_none (s := dropFrame s) hnone]
      exact ⟨by simp, by simp, leaveOutcome_port (s := s) le_rfl rfl rfl⟩
    case owned =>
      have hc' : c < (dropFrame s).race.cars.length := hlength.symm ▸ hc
      by_cases hentered : s.race.phase ≠ .results ∧ (carAt s c).state = .entered
      · have hcars : ((dropFrame s).withRace (setCar c Car.vacant s.race)).race.cars =
            (dropFrame s).race.cars.set c Car.vacant := rfl
        rw [if_pos hentered, processLeave_entered (s := dropFrame s) hc howner hlowest hentered.1 hentered.2]
        simp only [carAt_leaveOutcome, leaveOutcome_leaves]
        exact ⟨fun b hb => carAt_of_set_ne hcars hb, carAt_of_set hcars hc', rfl, rfl,
          leaveOutcome_port (s := s) hc.le rfl rfl⟩
      by_cases hracing : s.race.phase ≠ .results ∧ (carAt s c).state = .racing
      · have hcars := retireCar_cars .withdrawn c (dropFrame s)
        rw [if_neg hentered, if_pos hracing,
          processLeave_racing (s := dropFrame s) hc howner hlowest hracing.1 hracing.2]
        simp only [carAt_leaveOutcome]
        refine ⟨fun b hb => carAt_of_set_ne hcars hb, carAt_of_set hcars hc',
          leaveOutcome_port (s := s) hc.le (by simp) ?_⟩
        rw [retireCar_port]
        refine congrArg State.port (retirementReports_congr ?_ ?_ _) <;> simp
      · have hstays : s.race.phase = .results ∨ ((carAt s c).state ≠ .entered ∧ (carAt s c).state ≠ .racing) := by
          tauto
        rw [if_neg hentered, if_neg hracing, processLeave_stays (s := dropFrame s) hc howner hlowest hstays]
        simp only [carAt_leaveOutcome, leaveOutcome_leaves]
        exact ⟨fun b _ => rfl, rfl, rfl, leaveOutcome_port (s := s) hc.le rfl rfl⟩
  case slot =>
    rintro place syms s m hp ha hkind hd hlist hrelay hlength seat own answered accepted
    refine ⟨fun h => relaySlot_answer_below hp ha hlist hd hrelay
        ((anchorServe_leave hkind).trans (serveLeave_mismatch h)), fun hstation hseat => ?processed⟩
    have hanswer {t : State} {c : Nat} {k : CarState}
        (h : processLeave m.source seat s = (t, .accepted (leavePayload c k))) :
        relaySlot place syms s = (accepted c k, t) := by
      rw [relaySlot_answer_below hp ha hlist hd hrelay
        ((anchorServe_leave hkind).trans (serveLeave_processed hstation hseat h)), answerSlot_leave]
    refine ⟨fun hnone => hanswer (processLeave_none hnone), fun c hc howner hlowest =>
      ⟨fun hphase h => hanswer (processLeave_entered hc howner hlowest hphase h), fun hphase h =>
        ⟨_, hanswer (processLeave_racing hc howner hlowest hphase h), ?retired⟩,
        fun h => hanswer (processLeave_stays hc howner hlowest h)⟩⟩
    have hcars := retireCar_cars .withdrawn c s
    exact ⟨carAt_of_set hcars (hlength ▸ hc), fun b hb => carAt_of_set_ne hcars hb, retireCar_port .withdrawn c s,
      by simp⟩

end Sys2Proof.Machine
end

section
/-! The referral record: opened by a JOIN slot, decided by Admit, Refuse or the timeout, and delivered in its held slot
(chapter 06, R97 to R103). -/

namespace Sys2Proof.Machine

open Sys2Proof Sys2Proof.Safety

/-! ## A referral decided (R101) -/

section
variable {s : State} {j : JoinRequest} {carrier : Carrier} {left : Nat}

/-- The seat unit after a JOIN outcome. -/
theorem joinOutcome_seat (k : Nat) (out : MsgOutcome) (s : State) :
    (joinOutcome k out s).seat = { s.seat with seats := s.seat.seats.set k (seatAfterJoin out (seatAt s k)) } := by
  simp [joinOutcome, setSeat]

section
variable (a : JoinAnswer) (h : s.race.referral = .pending j .own left)
include h

theorem decideReferral_own_race : (decideReferral a s).race = { s.race with referral := .free } := by
  rw [decideReferral_own a h]
  simp

theorem decideReferral_own_seat : (decideReferral a s).seat = (joinOutcome j.seat (joinAnswerOutcome a) s).seat := by
  rw [decideReferral_own a h]
  simp

/-- The delivery of the anchor's own join changes the record, the seat unit and the port alone. -/
theorem decideReferral_own_eq :
    decideReferral a s =
      { s with race := { s.race with referral := .free }, seat := (decideReferral a s).seat,
               port := (decideReferral a s).port } := by
  have hrecord : (decideReferral a s).race.referral = .free := by rw [decideReferral_own_race a h]
  have hseat : (decideReferral a s).seat = { s.seat with seats := (decideReferral a s).seat.seats } := by
    rw [decideReferral_own_seat a h, joinOutcome_seat]
  calc decideReferral a s
      = _ := decideReferral_eq a s
    _ = _ := by rw [hrecord, ← hseat]

end

/-! ## Admit (R100) -/

theorem referralPending_iff :
    referralPending s = true ↔ ∃ j carrier left, s.race.referral = .pending j carrier left := by
  unfold referralPending
  split <;> simp_all

/-- The tests of Admit. -/
def admitTests (choice : CarChoice) (s : State) : List (Bool × RefusalReason) :=
  anchorTests true s ++ [(referralPending s, .noReferral), (choiceKnown choice, .malformed)]

/-- Admit at an acting anchor: the record, then the car number. -/
theorem firstRefusal_admit (hact : actingAnchor s = true) (choice : CarChoice) :
    firstRefusal (admitTests choice s) =
      if referralPending s = true then if choiceKnown choice = true then none else some .malformed
      else some .noReferral := by
  rw [admitTests, firstRefusal_anchorTests_append hact]
  rfl

/-- Admit of a known car, or of any, with a PENDING record is acted on. -/
theorem exec_admit {choice : CarChoice} (hready : AnchorReady s) (hpending : s.race.referral = .pending j carrier left)
    (hknown : choiceKnown choice = true) :
    exec (.admitCar true choice) s =
      .next (giveReply (.command .admitCar) (admitAct choice (dropFrame s)).2 (admitAct choice (dropFrame s)).1) :=
  congrArg Host.Outcome.next (takeCommand_passed .admitCar (tests := admitTests choice) (fun _ => admitAct choice) s
    hready.1 ((firstRefusal_admit (s := dropFrame s) hready.2 choice).trans
      ((if_pos (referralPending_iff.2 ⟨j, carrier, left, hpending⟩)).trans (if_pos hknown))))

/-- The car that an Admit names is given when it is VACANT, and with none named the lowest VACANT one. -/
theorem admittedCar_ok {choice : CarChoice} {c : Nat} (hc : c < 8) (hvacant : (carAt s c).state = .vacant)
    (hchoice : choice = .car c ∨ (choice = .any ∧ ∀ b < c, (carAt s b).state ≠ .vacant)) :
    admittedCar s.race choice = .ok c := by
  rcases hchoice with rfl | ⟨rfl, hlowest⟩
  · exact if_pos hvacant
  · simp only [admittedCar, lowestVacant_some hc hvacant hlowest]

theorem admitAct_ok {choice : CarChoice} {c : Nat} (hpending : s.race.referral = .pending j carrier left)
    (hcar : admittedCar s.race choice = .ok c) :
    admitAct choice s =
      (decideReferral (.accepted c)
        (s.withRace (setCar c (enteredFor j.station j.seat j.tag) s.race)), .done (.car c)) := by
  simp only [admitAct, hpending, hcar]
  rfl

theorem admitAct_error {choice : CarChoice} {r : RefusalReason} (hpending : s.race.referral = .pending j carrier left)
    (hcar : admittedCar s.race choice = .error r) : admitAct choice s = (s, .refused r) := by
  simp only [admitAct, hpending, hcar]

/-- An Admit that finds no car for its PENDING referral is refused. -/
theorem refused_admit {choice : CarChoice} {r : RefusalReason} (hready : AnchorReady s)
    (hpending : s.race.referral = .pending j carrier left) (hknown : choiceKnown choice = true)
    (hcar : admittedCar s.race choice = .error r) : Refused .admitCar (.admitCar true choice) r s := by
  rw [Refused, exec_admit hready hpending hknown, admitAct_error (s := dropFrame s) hpending hcar]

/-- Without a PENDING record Admit is NO REFERRAL, whatever car it names. -/
theorem refused_admit_noReferral (choice : CarChoice) (hready : AnchorReady s)
    (h : ∀ j carrier left, s.race.referral ≠ .pending j carrier left) :
    Refused .admitCar (.admitCar true choice) .noReferral s := by
  have hnone : ¬ referralPending (dropFrame s) = true := fun hp => by
    obtain ⟨j, carrier, left, hpending⟩ := referralPending_iff.1 hp
    exact h j carrier left hpending
  exact congrArg Host.Outcome.next (takeCommand_refused .admitCar (tests := admitTests choice)
    (fun _ => admitAct choice) s hready.1 ((firstRefusal_admit (s := dropFrame s) hready.2 choice).trans (if_neg hnone)))

/-! ## Refuse (R100) -/

/-- The tests of Refuse. -/
def refuseTests (s : State) : List (Bool × RefusalReason) := anchorTests true s ++ [(referralPending s, .noReferral)]

theorem firstRefusal_refuse (hact : actingAnchor s = true) :
    firstRefusal (refuseTests s) = if referralPending s = true then none else some .noReferral := by
  rw [refuseTests, firstRefusal_anchorTests_append hact]
  rfl

/-- Refuse answers a PENDING referral REFUSED. -/
theorem exec_refuse (hready : AnchorReady s) (hpending : s.race.referral = .pending j carrier left) :
    exec (.refuse true) s =
      .next (giveReply (.command .refuse) (.done .none) (decideReferral (.declined .refused) (dropFrame s))) :=
  congrArg Host.Outcome.next (takeCommand_passed .refuse (tests := refuseTests)
    (fun _ s => done (decideReferral (.declined .refused) s)) s hready.1
    ((firstRefusal_refuse (s := dropFrame s) hready.2).trans
      (if_pos (referralPending_iff.2 ⟨j, carrier, left, hpending⟩))))

theorem refused_refuse (hready : AnchorReady s) (h : ∀ j carrier left, s.race.referral ≠ .pending j carrier left) :
    Refused .refuse (.refuse true) .noReferral s := by
  have hnone : ¬ referralPending (dropFrame s) = true := fun hp => by
    obtain ⟨j, carrier, left, hpending⟩ := referralPending_iff.1 hp
    exact h j carrier left hpending
  exact congrArg Host.Outcome.next (takeCommand_refused .refuse (tests := refuseTests)
    (fun _ s => done (decideReferral (.declined .refused) s)) s hready.1
    ((firstRefusal_refuse (s := dropFrame s) hready.2).trans (if_neg hnone)))

/-! ## The referral timeout (R99, R101) -/

/-- The timeout ends what is left of a PENDING referral and answers it NO ANSWER. -/
theorem exec_referralTimeout (hact : actingAnchor s = true) (hpending : s.race.referral = .pending j carrier left) :
    exec .referralTimeout s = .next (decideReferral (.declined .noAnswer) (elapse left s)) := by
  change Host.Outcome.next (atInstant (referralRemaining s) _ s) = _
  simp only [referralRemaining, hact, hpending, if_true, atInstant]

/-- The timeout of a PENDING referral runs at an acting anchor. -/
theorem referral_elapse (hact : actingAnchor s = true) (hpending : s.race.referral = .pending j carrier left) :
    (elapse left s).race.referral = .pending j carrier 0 := by
  have hring : (s.cyc.ring == .deferred) = false := by simp [(mayPost_of_actingAnchor hact).ring]
  change elapseReferral left s.cyc.ring s.race.referral = _
  simp [elapseReferral, hpending, hring]

/-- While time passes the race controller keeps all but the time left to a referral. -/
theorem elapse_race (d : Nat) (s : State) (r : Referral) :
    { (elapse d s).race with referral := r } = { s.race with referral := r } := rfl

end

/-! ## The JOIN slot in REFERRED mode (R99, R101) -/

/-- The report of an event does not depend on the slots. -/
theorem queueEvent_withSlots (r : Report) (e : SlotEngine) (s : State) :
    (queueEvent r s).withSlots e = queueEvent r (s.withSlots e) := by
  rw [queueEvent_of_port r (s.withSlots e) s rfl, queueEvent_eq_port r s]
  rfl

section
variable {place : Nat} {m : SlotMsg} {s : State}

section
variable (hstation : (joinOf m.body).station = m.source) (hseat : (joinOf m.body).seat ≤ 1)
  (h : judgeJoin s.race (signature s) (joinOf m.body) = .referred)
include hstation hseat h

/-- A referred join opens the FREE record, and its slot is held. -/
theorem serveJoin_opens (hfree : s.race.referral = .free) :
    serveJoin place m s =
      (openReferral (joinOf m.body) (.slot place m.source m.tag)
          (s.withSlots { s.slots with held := s.slots.held ++ [{ place := place, source := m.source, tag := m.tag }] }),
        .left true) := by
  rw [serveJoin, if_neg (by omega)]
  simp only [h, hfree, openReferral, queueReferral, queueEvent_withSlots]
  rfl

/-- With the record not FREE a referred join is left in its slot, without the hold mark. -/
theorem serveJoin_deferred (hbusy : s.race.referral ≠ .free) : serveJoin place m s = (s, .left false) := by
  rw [serveJoin, if_neg (by omega)]
  simp only [h]

end

/-- The held slot is carried on while its referral is not DECIDED. -/
theorem serveHeld_waits (h : ∀ k carrier a left, s.race.referral ≠ .decided k carrier a left) :
    serveHeld place s = (s, .left true) := by
  unfold serveHeld
  split
  · exact absurd ‹_› (h _ _ _ _)
  · rfl

/-- A DECIDED referral is delivered in its held slot. -/
theorem serveHeld_decided {k : JoinRequest} {carrier : Carrier} {a : JoinAnswer} {left : Nat}
    (h : s.race.referral = .decided k carrier a left) :
    serveHeld place s =
      (closeReferral k a (s.withSlots { s.slots with held := s.slots.held.filter fun h => h.place != place }),
        .answer (joinAnswerOutcome a)) := by
  simp only [serveHeld, h]

end

/-- Settles O43: the record's life by the commands, the timeout, and the slot that opens it and delivers its answer. -/
theorem referralIsDecided : Obligations.ReferralIsDecided := by
  refine ⟨?admission, ?refuse, ?timeout, ?slot⟩
  case admission =>
    intro s choice hready hlength
    refine ⟨fun j carrier left hpending => ⟨fun c hc hvacant hchoice => ?given, fun c hc hstate hchoice => ?occupied,
      fun hfull hchoice => ?full⟩, fun h => ⟨refused_admit_noReferral choice hready h, refused_refuse hready h⟩⟩
    case given =>
      have hknown : choiceKnown choice = true := by
        rcases hchoice with rfl | ⟨rfl, -⟩
        · simpa [choiceKnown] using hc
        · rfl
      have hact := admitAct_ok (s := dropFrame s) hpending (admittedCar_ok (s := s) hc hvacant hchoice)
      have hexec := exec_admit hready hpending hknown
      rw [hact] at hexec
      generalize hv : (dropFrame s).withRace
        (setCar c (enteredFor j.station j.seat j.tag) (dropFrame s).race) = v at hexec
      have hv' : v.race.referral = .pending j carrier left := by rw [← hv]; exact hpending
      have hcars : (decideReferral (.accepted c) v).race.cars =
          s.race.cars.set c (enteredFor j.station j.seat j.tag) := by
        rw [decideReferral_eq, ← hv]; rfl
      refine ⟨_, hexec, carAt_of_set hcars (hlength.symm ▸ hc), fun b hb => carAt_of_set_ne hcars hb, ?phase,
        fun p q t hslot => ?held, fun hown => ?own, ?frame⟩
      case phase => rw [decideReferral_eq, ← hv]; rfl
      case held =>
        subst hslot
        rw [decideReferral_slot _ hv', ← hv]
        exact ⟨rfl, rfl⟩
      case own =>
        subst hown
        refine ⟨by rw [decideReferral_own_race _ hv'], fun w hw _ => ?_⟩
        have hw' : seatAt v j.seat = .requested w := by rw [← hv]; exact hw
        rw [seatAt, decideReferral_own_seat _ hv']
        exact seatAt_joinOutcome_car hw' (namedCar_accepted hc)
      case frame =>
        rw [decideReferral_eq, ← hv]
        exact ⟨rfl, rfl, rfl, rfl⟩
    case occupied =>
      subst hchoice
      exact refused_admit hready hpending (by simpa [choiceKnown] using hc) (if_neg hstate)
    case full =>
      subst hchoice
      exact refused_admit hready hpending rfl (by simp only [admittedCar, lowestVacant_none hfull])
  case refuse =>
    intro s j carrier left hready hpending
    have hexec := exec_refuse hready hpending
    refine ⟨fun p q t hslot => ?held, fun hown => ?own⟩
    case held =>
      subst hslot
      rw [hexec, decideReferral_slot (s := dropFrame s) _ hpending]
      rfl
    case own =>
      subst hown
      refine ⟨_, hexec, ?_, ((decideReferral_declined .refused (dropFrame s)).2.1 j left hpending).2⟩
      conv_lhs => rw [decideReferral_own_eq (s := dropFrame s) _ hpending]
      rfl
  case timeout =>
    intro s j carrier left hact hpending
    have hexec := exec_referralTimeout hact hpending
    have hleft := referral_elapse hact hpending
    refine ⟨fun place source tag hslot => ?held, fun hown => ?own⟩
    case held =>
      subst hslot
      rw [hexec, decideReferral_slot _ hleft, elapse_race]
    case own =>
      subst hown
      refine ⟨_, hexec, ?_, ?_, by simp, by simp, by simp⟩
      · rw [decideReferral_own_race _ hleft, elapse_race]
      · rw [decideReferral_own_seat _ hleft, joinOutcome_seat]
        rw [elapse_seat, show seatAt (elapse left s) j.seat = seatAt s j.seat from rfl]
        cases seatAt s j.seat <;> rfl
  case slot =>
    intro place syms s m hp ha hkind hd h15 hlist hdlist stands j told
    refine ⟨fun hstands hphase hsig hstation hseat hmode hfree => ?referred, fun hstands => ⟨fun hwaits => ?waits,
      fun k carrier a left hdecided hrelay => ?delivered⟩⟩
    case referred =>
      have hno : OwnsNoCar s j := by rw [OwnsNoCar, hstation]; exact hfree
      have hreferred := join_referred hphase hsig hno hmode
      have hserve := anchorServe_join (place := place) (s := s) hkind hstands
      have hdefer (hbusy : s.race.referral ≠ .free) := hserve.trans (serveJoin_deferred hstation hseat hreferred hbusy)
      exact ⟨fun hrecord => relaySlot_hold hp ha hlist hd
          (hserve.trans (serveJoin_opens hstation hseat hreferred hrecord)),
        fun hbusy hrelay => relaySlot_left_below hp ha hlist hd hrelay h15 hdlist (hdefer hbusy),
        fun hbusy hrelay => relaySlot_left_top hp ha hlist hd hrelay (hdefer hbusy)⟩
    case waits =>
      have hhold : { m with hold := true } = m := by rw [← hstands.1]
      rw [relaySlot_hold hp ha hlist hd ((anchorServe_held hkind hstands).trans (serveHeld_waits hwaits)), hhold]
    case delivered =>
      intro answered t
      have hslot := relaySlot_answer_below hp ha hlist hd hrelay
        ((anchorServe_held hkind hstands).trans (serveHeld_decided hdecided))
      refine ⟨fun c hc => ?_, fun why hwhy => ?_⟩
      · subst hc
        rw [hslot, answerSlot_joinAccepted]
        rfl
      · subst hwhy
        exact hslot

end Sys2Proof.Machine
end

section
/-! What a step makes of a car in the race: its owner and tag stay, and neither its laps nor its last accepted race
stamp falls, unless the race is emptied (chapters 05, 06 and 09, R81, R91, R92, R98, R105, R140 to R146). -/

namespace Sys2Proof.Machine

open Sys2Proof Sys2Proof.Safety

/-! ## Cars that run on -/

/-- A car that has started: RACING, or one of the states behind it (R91). -/
def Started (k : Car) : Prop := k.state ≠ .vacant ∧ k.state ≠ .entered

/-- A car that has started stays so, with its owner and tag, and neither its laps nor its stamp falls. Unlike
`CarUpheld` of a RACING car this passes on from one operation to the next within a step. -/
def RunsOn (a b : Car) : Prop :=
  Started a → Started b ∧ a.owner = b.owner ∧ a.tag = b.tag ∧ a.laps ≤ b.laps ∧ a.stamp.toNat ≤ b.stamp.toNat

/-- Every car of the car table runs on. -/
def CarsRunOn (s t : State) : Prop := ∀ c, RunsOn (carAt s c) (carAt t c)

theorem started_of_racing {k : Car} (h : k.state = .racing) : Started k := by simp [Started, h]

theorem not_started_vacant : ¬ Started Car.vacant := fun h => h.1 rfl

theorem runsOn_refl (k : Car) : RunsOn k k := fun h => ⟨h, rfl, rfl, le_rfl, le_rfl⟩

theorem RunsOn.trans {a b c : Car} (hab : RunsOn a b) (hbc : RunsOn b c) : RunsOn a c := by
  intro ha
  obtain ⟨hb, howner, htag, hlaps, hstamp⟩ := hab ha
  obtain ⟨hc, howner', htag', hlaps', hstamp'⟩ := hbc hb
  exact ⟨hc, howner.trans howner', htag.trans htag', hlaps.trans hlaps', hstamp.trans hstamp'⟩

/-- A car that has not started may become anything. -/
theorem runsOn_of_not_started {a : Car} (h : ¬ Started a) (b : Car) : RunsOn a b := fun ha => absurd ha h

theorem RunsOn.upheld {a b : Car} (h : RunsOn a b) (hracing : a.state = .racing) : CarUpheld a b :=
  .inr (h (started_of_racing hracing)).2

theorem CarsRunOn.trans {s t u : State} (hst : CarsRunOn s t) (htu : CarsRunOn t u) : CarsRunOn s u :=
  fun c => (hst c).trans (htu c)

/-- An operation that leaves the car table lets every car run on. -/
theorem CarsRunOn.of_cars {s t : State} (h : t.race.cars = s.race.cars) : CarsRunOn s t := by
  intro c
  rw [show carAt t c = carAt s c by simp only [carAt, h]]
  exact runsOn_refl _

theorem carsRunOn_refl (s : State) : CarsRunOn s s := .of_cars rfl

/-- One car replaced. -/
theorem CarsRunOn.of_set {s t : State} {c : Nat} {k : Car} (h : t.race.cars = s.race.cars.set c k)
    (hk : RunsOn (carAt s c) k) : CarsRunOn s t := by
  intro b
  by_cases hb : b = c
  · subst hb
    rcases lt_or_ge b s.race.cars.length with hlt | hge
    · rwa [carAt_of_set h hlt]
    · rw [show carAt s b = Car.vacant by simp [carAt, hge]]
      exact runsOn_of_not_started not_started_vacant _
  · rw [carAt_of_set_ne h hb]
    exact runsOn_refl _

/-- Every car replaced alike. -/
theorem CarsRunOn.of_map {s t : State} {f : Car → Car} (h : t.race.cars = s.race.cars.map f)
    (hf : ∀ k, RunsOn k (f k)) : CarsRunOn s t := by
  intro c
  have ht : carAt t c = ((s.race.cars[c]?).map f).getD Car.vacant := by
    simp [carAt, h, List.getD_eq_getElem?_getD]
  have hs : carAt s c = (s.race.cars[c]?).getD Car.vacant := by simp [carAt, List.getD_eq_getElem?_getD]
  rw [hs, ht]
  cases s.race.cars[c]? with
  | none => exact runsOn_refl _
  | some k => exact hf k

/-- A walk lets every car run on when each of its steps does. -/
theorem CarsRunOn.foldl {α : Type} {f : State → α → State} (h : ∀ s a, CarsRunOn s (f s a)) (l : List α)
    (s : State) : CarsRunOn s (l.foldl f s) := by
  induction l generalizing s with
  | nil => exact carsRunOn_refl s
  | cons a l ih => exact (h s a).trans (ih (f s a))

/-! ## One car's change -/

theorem runsOn_retiredCar (why : RetireReason) {k : Car} : RunsOn k (retiredCar why k) :=
  fun _ => ⟨by simp [Started, retiredCar], rfl, rfl, le_rfl, le_rfl⟩

theorem runsOn_unplacedCar (k : Car) : RunsOn k (unplacedCar k) :=
  fun _ => ⟨by simp [Started, unplacedCar], rfl, rfl, le_rfl, le_rfl⟩

/-- A block with a later stamp gives the car the greater lap count and its stamp (R140). -/
theorem runsOn_carAfterBlock (race : Micros) {d : CarData} {k : Car} (h : k.stamp.toNat < d.raceStamp.toNat) :
    RunsOn k (carAfterBlock race d k) :=
  fun hk => ⟨hk, rfl, rfl, le_max_right _ _, h.le⟩

theorem runsOn_finishedCar (race : Micros) {d : CarData} {k : Car} (h : k.stamp.toNat < d.raceStamp.toNat) :
    RunsOn k (finishedCar race d k) :=
  fun _ => ⟨by simp [Started, finishedCar], rfl, rfl, le_max_right _ _, h.le⟩

theorem not_started_of_vacant {k : Car} (h : k.state = .vacant) : ¬ Started k := fun hk => hk.1 h

theorem not_started_of_entered {k : Car} (h : k.state = .entered) : ¬ Started k := fun hk => hk.2 h

/-! ## The race controller -/

@[simp] theorem testRaceEnd_cars (s : State) : (testRaceEnd s).race.cars = s.race.cars := by
  unfold testRaceEnd
  split <;> simp [confirmList]

@[simp] theorem afterLeavingRacing_cars (cause : PlacingCause) (before : RaceControl) (s : State) :
    (afterLeavingRacing cause before s).race.cars = s.race.cars := by
  simp [afterLeavingRacing, confirmList]

theorem carsRunOn_retireCar (why : RetireReason) (c : Nat) (s : State) : CarsRunOn s (retireCar why c s) :=
  .of_set (retireCar_cars why c s) (runsOn_retiredCar why)

theorem carsRunOn_takeDeadline (s : State) : CarsRunOn s (takeDeadline s) := by
  refine .of_map (f := fun k => if k.state = .racing then unplacedCar k else k) (by simp [takeDeadline]) fun k => ?_
  split
  · exact runsOn_unplacedCar k
  · exact runsOn_refl k

/-- The finish list's entry of a car that a block finishes (R142). -/
def finishEntry (c : Nat) (d : CarData) (s : State) : FinishEntry :=
  { car := c, time := clampCrossing (carAt s c).stamp d.raceStamp d.crossing, confirmed := false }

/-- The race with a car that a block finishes in the car table and the finish list (R142, R143). -/
def finishedRace (c : Nat) (d : CarData) (s : State) : RaceControl :=
  { setCar c (finishedCar s.time.race d (carAt s c)) s.race with
    finish := insertFinish (finishEntry c d s) s.race.finish }

/-- The race behind a finishing block and its confirmation test: the deadline follows the head of the list, and
RUNNING becomes CLOSING (R142, R144, R145). -/
def closedRace (c : Nat) (d : CarData) (s : State) : RaceControl :=
  confirmList
    { recomputeDeadline s.race.finish (finishedRace c d s) with
      phase := if s.race.phase = .running then .closing else s.race.phase }

/-- The state behind a finishing block and the PHASE report of the first finisher (R142, R145). -/
def blockEntered (c : Nat) (d : CarData) (s : State) : State :=
  let r := recomputeDeadline s.race.finish (finishedRace c d s)
  if s.race.phase = .running then queuePhase .finish (s.withRace { r with phase := .closing }) else s.withRace r

/-- The state behind a finishing block and its reports, before the deadline or the race's end is looked at. -/
def blockFinished (c : Nat) (d : CarData) (s : State) : State :=
  queuePlacing .finish s.race ((blockEntered c d s).withRace (confirmList (blockEntered c d s).race))

theorem finishCar_eq (c : Nat) (d : CarData) (s : State) :
    finishCar c d s =
      if deadlineReached (blockFinished c d s) && decide (0 < racingCount (blockFinished c d s).race) then
        takeDeadline (blockFinished c d s)
      else testRaceEnd (blockFinished c d s) := rfl

theorem recomputeDeadline_eq (before : List FinishEntry) (r : RaceControl) :
    ∃ dl, recomputeDeadline before r = { r with deadline := dl } := by
  unfold recomputeDeadline
  split
  · exact ⟨_, rfl⟩
  · split <;> exact ⟨_, rfl⟩

theorem blockFinished_race (c : Nat) (d : CarData) (s : State) :
    (blockFinished c d s).race = closedRace c d s := by
  obtain ⟨dl, hdl⟩ := recomputeDeadline_eq s.race.finish (finishedRace c d s)
  simp only [blockFinished, blockEntered, closedRace, queuePlacing_leaves, hdl]
  split
  · simp
  · rfl

@[simp] theorem closedRace_cars (c : Nat) (d : CarData) (s : State) :
    (closedRace c d s).cars = s.race.cars.set c (finishedCar s.time.race d (carAt s c)) := by
  obtain ⟨dl, hdl⟩ := recomputeDeadline_eq s.race.finish (finishedRace c d s)
  rw [closedRace, hdl]
  rfl

theorem carsRunOn_finishCar (c : Nat) {d : CarData} {s : State} (h : (carAt s c).stamp.toNat < d.raceStamp.toNat) :
    CarsRunOn s (finishCar c d s) := by
  have hset : CarsRunOn s (blockFinished c d s) :=
    .of_set (by rw [blockFinished_race, closedRace_cars]) (runsOn_finishedCar _ h)
  rw [finishCar_eq]
  split
  · exact hset.trans (carsRunOn_takeDeadline _)
  · exact hset.trans (.of_cars (testRaceEnd_cars _))

/-- A returned block is read only of a later stamp (R139, R140). -/
theorem carsRunOn_readBlock (c : Nat) (syms : List RxSym) (s : State) : CarsRunOn s (readBlock c syms s) := by
  unfold readBlock
  split
  · exact carsRunOn_refl s
  · next b _ =>
    dsimp only
    split
    · next hread =>
      have hlater : (carAt s c).stamp.toNat < b.data.raceStamp.toNat := by simp_all
      split
      · exact carsRunOn_finishCar c hlater
      · refine .of_set (c := c) (k := carAfterBlock s.time.race b.data (carAt s c)) ?_ (runsOn_carAfterBlock _ hlater)
        split <;> simp [confirmList, setCar]
    · exact carsRunOn_refl s

@[simp] theorem setCauses_cars (causes : HeldCauses) (ev : PhaseEvent) (s : State) :
    (setCauses causes ev s).race.cars = s.race.cars := by
  unfold setCauses
  split <;> simp

@[simp] theorem openReferral_cars (j : JoinRequest) (carrier : Carrier) (s : State) :
    (openReferral j carrier s).race.cars = s.race.cars := by
  simp [openReferral]

@[simp] theorem closeReferral_cars (j : JoinRequest) (a : JoinAnswer) (s : State) :
    (closeReferral j a s).race.cars = s.race.cars := by
  simp [closeReferral]

@[simp] theorem loseReferral_cars (s : State) : (loseReferral s).race.cars = s.race.cars := by
  unfold loseReferral
  split <;> simp

@[simp] theorem decideReferral_cars (a : JoinAnswer) (s : State) :
    (decideReferral a s).race.cars = s.race.cars := by
  unfold decideReferral
  split
  · rfl
  · rfl
  · split <;> simp

/-- A join gives its answer a VACANT car alone (R98). -/
theorem carsRunOn_enterCar (j : JoinRequest) (a : JoinAnswer) (s : State) :
    CarsRunOn s (s.withRace (enterCar j a s.race)) := by
  unfold enterCar
  split
  · exact carsRunOn_refl s
  · next c =>
    split
    · next hvacant => exact .of_set rfl (runsOn_of_not_started (not_started_of_vacant hvacant) _)
    · exact carsRunOn_refl s

theorem carsRunOn_ownJoin (j : JoinRequest) (s : State) : CarsRunOn s (ownJoin j s) := by
  unfold ownJoin
  split
  · next a _ => exact (carsRunOn_enterCar j a s).trans (.of_cars (by simp))
  · split
    · exact .of_cars (by simp)
    · exact carsRunOn_refl s

/-- A leave vacates an ENTERED car and retires a RACING one (R105). -/
theorem carsRunOn_processLeave (station seat : Nat) (s : State) : CarsRunOn s (processLeave station seat s).1 := by
  unfold processLeave
  split
  · exact carsRunOn_refl s
  · dsimp only
    split_ifs with hentered
    · exact .of_set rfl (runsOn_of_not_started (not_started_of_entered hentered.2) _)
    · exact carsRunOn_retireCar _ _ s
    · exact carsRunOn_refl s

/-- GO starts the ENTERED cars (R81). -/
theorem carsRunOn_startCars (race : Micros) {s t : State} (h : t.race.cars = (startCars race s.race).cars) :
    CarsRunOn s t := by
  refine .of_map (f := fun k => if k.state = .entered then racingCar race k else k) h fun k => ?_
  split
  · next hentered => exact runsOn_of_not_started (not_started_of_entered hentered) _
  · exact runsOn_refl k

theorem carsRunOn_fireNow (s : State) : CarsRunOn s (fireNow s) := by
  unfold fireNow
  split
  · split
    · exact carsRunOn_startCars _ (by simp [fireAtAnchor]; rfl)
    · exact .of_cars (by simp)
  · exact carsRunOn_refl s
  · exact carsRunOn_refl s

end Sys2Proof.Machine
end

section
/-! What the slots, the frames and the boundaries of a station make of the cars in the race (R15, R26, R34, R71, R91). -/

namespace Sys2Proof.Machine

open Sys2Proof Sys2Proof.Safety

/-! ## Slots at the anchor (R69 to R72) -/

theorem carsRunOn_serveJoin (place : Nat) (m : SlotMsg) (s : State) : CarsRunOn s (serveJoin place m s).1 := by
  unfold serveJoin
  dsimp only
  split
  · exact carsRunOn_refl s
  · split
    · next a _ => exact carsRunOn_enterCar _ a s
    · split
      · exact .of_cars (by simp)
      · exact carsRunOn_refl s

theorem carsRunOn_anchorServe (place : Nat) (m : SlotMsg) (s : State) : CarsRunOn s (anchorServe place m s).1 := by
  unfold anchorServe
  split
  · split
    · unfold serveHeld
      split
      · exact .of_cars (by simp)
      · exact carsRunOn_refl s
    · exact carsRunOn_serveJoin place m s
  · unfold serveLeave
    split
    · exact carsRunOn_refl s
    · exact carsRunOn_processLeave _ _ s
  · have hserve := serveSlot_leaves m s
    split
    · next t o heq => exact .of_cars (by simp_all)
    · next t heq => exact .of_cars (by simp_all)

@[simp] theorem loseHeld_cars (place : Nat) (s : State) : (loseHeld place s).race.cars = s.race.cars := by
  unfold loseHeld
  split <;> simp

@[simp] theorem loseAllHeld_cars (s : State) : (loseAllHeld s).race.cars = s.race.cars := by
  unfold loseAllHeld
  split <;> simp

@[simp] theorem relayPosted_cars (place : Nat) (m : SlotMsg) (s : State) :
    (relayPosted place m s).2.race.cars = s.race.cars := by
  unfold relayPosted
  split_ifs <;> simp

@[simp] theorem relayAnswered_cars (place : Nat) (m : SlotMsg) (s : State) :
    (relayAnswered place m s).2.race.cars = s.race.cars := by
  unfold relayAnswered
  split_ifs <;> simp

theorem carsRunOn_relaySlot (place : Nat) (syms : List RxSym) (s : State) :
    CarsRunOn s (relaySlot place syms s).2 := by
  unfold relaySlot
  split
  · exact .of_cars (by simp)
  · exact carsRunOn_refl s
  · next m _ =>
    split_ifs
    · exact .of_cars (by simp)
    · exact .of_cars (by simp)
    · have hserve := carsRunOn_anchorServe place m s
      split
      · next t o heq => exact (heq ▸ hserve).trans (.of_cars (by simp))
      · next t heq => exact (heq ▸ hserve).trans (.of_cars (by simp))
      · next t heq => exact (heq ▸ hserve).trans (.of_cars (by simp))
    · exact .of_cars (by simp)

theorem carsRunOn_relaySlots (syms : List RxSym) (i n : Nat) (s : State) :
    CarsRunOn s (relaySlots syms i n s).2 := by
  induction n generalizing i s with
  | zero => exact carsRunOn_refl s
  | succ n ih => exact (carsRunOn_relaySlot i _ s).trans (ih _ _)

/-! ## A return at the anchor (R14, R26, R139) -/

@[simp] theorem takeRoll_cars (field : Half) (s : State) : (takeRoll field s).race.cars = s.race.cars := by
  unfold takeRoll
  dsimp only
  split <;> simp

@[simp] theorem takeAttention_cars (field : Half) (s : State) : (takeAttention field s).race.cars = s.race.cars := by
  unfold takeAttention
  dsimp only
  split <;> simp

@[simp] theorem takeBlocks_cars (l : List CarSummary) (syms : List RxSym) (s : State) :
    (takeBlocks l syms s).race.cars = s.race.cars :=
  foldl_keeps (fun s => s.race.cars) (fun s c => by simp) _ _

theorem carsRunOn_readBlocks (syms : List RxSym) (s : State) : CarsRunOn s (readBlocks syms s) :=
  .foldl (fun s c => carsRunOn_readBlock c _ s) _ s

/-- The state in which the relay takes the slots of a valid return: the blocks read and the fields taken (R71). -/
def blocksTaken (h : Header) (syms : List RxSym) (s : State) : State :=
  let s1 := s.withCyc { s.cyc with awaited := none, missed := 0 }
  let s2 := readBlocks syms (s1.withSlots (takeClaim h.claim s1.slots))
  let s3 := if s.cyc.ring = .surveying then s2 else takeBlocks (tableSummary s.race) syms s2
  takeAttention h.attention
    (takeRoll h.roll (s3.withCyc { s3.cyc with relayCopy := (List.range 8).map fun c => blockPart c syms }))

theorem handReturn_eq (h : Header) (syms : List RxSym) (s : State) :
    handReturn h syms s =
      (relaySlots syms 0 6 (blocksTaken h syms s)).2.withSlots
        { (relaySlots syms 0 6 (blocksTaken h syms s)).2.slots with
          nextSlots := (relaySlots syms 0 6 (blocksTaken h syms s)).1 } := rfl

theorem carsRunOn_blocksTaken (h : Header) (syms : List RxSym) (s : State) :
    CarsRunOn s (blocksTaken h syms s) := by
  let s1 := s.withCyc { s.cyc with awaited := none, missed := 0 }
  have hread := carsRunOn_readBlocks syms (s1.withSlots (takeClaim h.claim s1.slots))
  refine .trans (.of_cars rfl) (hread.trans (.of_cars ?_))
  unfold blocksTaken
  dsimp only
  split <;> simp [s1]

theorem carsRunOn_handReturn (h : Header) (syms : List RxSym) (s : State) : CarsRunOn s (handReturn h syms s) := by
  rw [handReturn_eq]
  exact (carsRunOn_blocksTaken h syms s).trans ((carsRunOn_relaySlots syms 0 6 _).trans (.of_cars rfl))

@[simp] theorem startSurvey_cars (s : State) : (startSurvey s).race.cars = s.race.cars := by
  simp [startSurvey, beginSurvey]

theorem carsRunOn_validReturn (h : Header) (syms : List RxSym) (s : State) :
    CarsRunOn s (validReturn h syms s) := by
  refine (carsRunOn_handReturn h syms s).trans (.of_cars ?_)
  unfold validReturn noteNewcomer
  dsimp only
  split_ifs <;> simp

/-! ## Foreign frames and ring loss (R10, R16, R75) -/

@[simp] theorem enterDeferred_cars (serial : Serial) (frames : List OutFrame) (s : State) :
    (enterDeferred serial frames s).race.cars = s.race.cars := by
  simp [enterDeferred]

@[simp] theorem foreignTaken_cars (k : FrameKind) (syms : List RxSym) (serial : Serial) (sent : Option Nat)
    (s : State) : (foreignTaken k syms serial sent s).race.cars = s.race.cars := by
  unfold foreignTaken
  split <;> simp

@[simp] theorem foreignJudged_cars (k : FrameKind) (f : RxFrame) (sent : Option Nat) (s : State) :
    (foreignJudged k f sent s).race.cars = s.race.cars := by
  unfold foreignJudged
  split
  · rfl
  · split <;> simp

@[simp] theorem deferredForward_cars (k : FrameKind) (syms : List RxSym) (s : State) :
    (deferredForward k syms s).race.cars = s.race.cars := by
  simp [deferredForward]

@[simp] theorem silenceExpires_cars (s : State) : (silenceExpires s).race.cars = s.race.cars := by
  unfold silenceExpires
  split <;> simp [enterLost, returnListening]

theorem carsRunOn_anchorCycle (f : RxFrame) (s : State) : CarsRunOn s (anchorCycle f s) := by
  unfold anchorCycle
  split
  · exact carsRunOn_refl s
  · split_ifs
    · exact carsRunOn_refl s
    · exact .of_cars (by simp)
    · exact carsRunOn_validReturn _ _ s
    · exact carsRunOn_refl s

/-! ## Surveys (R31 to R34) -/

@[simp] theorem enterCycling_cars (s : State) : (enterCycling s).race.cars = s.race.cars := by
  simp [enterCycling]

@[simp] theorem failSurvey_cars (r : SurveyRun) (why : SurveyFailure) (shared : Option (Nat × Serial × Serial))
    (s : State) : (failSurvey r why shared s).race.cars = s.race.cars := by
  simp [failSurvey]

@[simp] theorem endAttempt_cars (r : SurveyRun) (why : SurveyFailure) (s : State) :
    (endAttempt r why s).race.cars = s.race.cars := by
  unfold endAttempt
  split <;> simp

/-- A car of a missing station: ENTERED it is vacated, RACING it is retired (R34). -/
theorem carsRunOn_missingCar (m : RingMap) (s : State) (c : Nat) : CarsRunOn s (missingCar m s c) := by
  unfold missingCar
  dsimp only
  split
  · split
    · next hentered => exact .of_set rfl (runsOn_of_not_started (not_started_of_entered hentered) _)
    · exact carsRunOn_retireCar _ _ s
    · exact carsRunOn_refl s
  · exact carsRunOn_refl s

theorem carsRunOn_applyMissing (m : RingMap) (s : State) : CarsRunOn s (applyMissing m s) := by
  unfold applyMissing
  split
  · exact carsRunOn_refl s
  · exact .foldl (carsRunOn_missingCar m) _ s

theorem carsRunOn_succeedSurvey (r : SurveyRun) (entries : List CollectEntry) (trip : Nat) (s : State) :
    CarsRunOn s (succeedSurvey r entries trip s) := by
  let u := s.withSurvey (adoptMap entries trip s.survey)
  have hmissing : CarsRunOn s (applyMissing u.survey.map u) :=
    .trans (.of_cars rfl) (carsRunOn_applyMissing u.survey.map u)
  exact hmissing.trans (.of_cars (by simp [succeedSurvey, clearFault, u]))

theorem carsRunOn_judgePass (r : SurveyRun) (overflow : Bool) (entries : List CollectEntry) (trip : Nat) (s : State) :
    CarsRunOn s (judgePass r overflow entries trip s) := by
  unfold judgePass
  dsimp only
  split
  · exact .of_cars (by simp)
  · split
    · exact .of_cars (by simp)
    · split
      · exact .of_cars rfl
      · unfold judgeSecond
        split
        · exact .of_cars (by simp)
        · split_ifs
          · exact .of_cars (by simp)
          · exact .of_cars (by simp)
          · exact .of_cars (by simp)
          · exact carsRunOn_succeedSurvey _ _ _ s

theorem carsRunOn_anchorCollect (f : RxFrame) (trip : Nat) (s : State) : CarsRunOn s (anchorCollect f trip s) := by
  unfold anchorCollect
  split
  · exact carsRunOn_refl s
  · split
    · split
      · exact carsRunOn_refl s
      · exact .of_cars (by simp)
    · split
      · split
        · exact carsRunOn_judgePass _ _ _ _ s
        · exact carsRunOn_refl s
      · exact carsRunOn_refl s

/-! ## Boundaries (R13 to R15) -/

@[simp] theorem missReturn_cars (s : State) : (missReturn s).race.cars = s.race.cars := by
  simp [missReturn]

@[simp] theorem enterStalled_cars (s : State) : (enterStalled s).race.cars = s.race.cars := by
  unfold enterStalled
  dsimp only
  split <;> simp

@[simp] theorem countMissed_cars (s : State) : (countMissed s).race.cars = s.race.cars := by
  unfold countMissed
  split_ifs <;> simp

@[simp] theorem copyOwnPost_race (before after : Slot) (s : State) : (copyOwnPost before after s).race = s.race := by
  unfold copyOwnPost
  split
  · split <;> simp
  · rfl

@[simp] theorem anchorSlots_race (free : Bool) (i : Nat) (l : List Slot) (p : SlotPass) (s : State) :
    (anchorSlots free i l p s).2.race = s.race := by
  induction l generalizing i p s with
  | nil => rfl
  | cons slot rest ih => simp [anchorSlots, ih]

@[simp] theorem emitCycle_race (s : State) : (emitCycle s).race = s.race := by
  simp [emitCycle, placeBoundary, anchorMirrors]

@[simp] theorem emitPass_race (s : State) : (emitPass s).race = s.race := by
  unfold emitPass
  split <;> simp

@[simp] theorem surveyBoundary_cars (s : State) : (surveyBoundary s).race.cars = s.race.cars := by
  unfold surveyBoundary dropAwaited
  split
  · rfl
  · dsimp only
    split_ifs <;> simp [placeBoundary]

@[simp] theorem atBoundary_cars (s : State) : (atBoundary s).race.cars = s.race.cars := by
  unfold atBoundary
  split <;> simp

/-! ## Frames at a node (R6, R28, R68) -/

@[simp] theorem nodeSlot_race (place : Nat) (m : SlotMsg) (s : State) : (nodeSlot place m s).2.race = s.race := by
  have hserve := serveSlot_leaves m s
  unfold nodeSlot
  split_ifs
  · simp
  · rfl
  · simp
  · rfl
  · split <;> simp_all
  · simp
  · rfl
  · rfl
  · rfl

@[simp] theorem passSlot_race (free : Bool) (syms : List RxSym) (i : Nat) (p : SlotPass) (s : State) :
    (passSlot free syms i p s).2.2.race = s.race := by
  unfold passSlot
  dsimp only
  split
  · rfl
  · next slot _ => cases slot <;> simp

@[simp] theorem passSlots_race (free : Bool) (syms : List RxSym) (i n : Nat) (p : SlotPass) (s : State) :
    (passSlots free syms i n p s).2.2.race = s.race := by
  induction n generalizing i p s with
  | zero => rfl
  | succ n ih => exact (ih _ _ _).trans (passSlot_race free syms i p s)

@[simp] theorem passBlock_race (h : Header) (syms : List RxSym) (c : Nat) (s : State) :
    (passBlock h syms c s).2.race = s.race := by
  unfold passBlock
  dsimp only
  split <;> simp

@[simp] theorem passBlocks_race (h : Header) (syms : List RxSym) (c n : Nat) (s : State) :
    (passBlocks h syms c n s).2.race = s.race := by
  induction n generalizing c s with
  | zero => rfl
  | succ n ih => exact (ih _ _).trans (passBlock_race h syms c s)

@[simp] theorem takeHeader_race (t : RingTest) (h : Header) (s : State) : (takeHeader t h s).race = s.race := by
  unfold takeHeader becomeMapped becomeUnmapped
  dsimp only
  split
  · split <;> simp
  · split <;> simp
  · split <;> simp

@[simp] theorem raceFromHeader_race (h : Header) (target : Nat) (s : State) :
    (raceFromHeader h target s).race = s.race := by
  unfold raceFromHeader raceOnCountdown raceOnRunning raceOnResults
  split
  · rfl
  · rfl
  · split
    · rfl
    · split <;> simp
    · rfl
  · split <;> simp
  · split <;> simp
  · split <;> rfl

@[simp] theorem timeFromHeader_race (t : RingTest) (h : Header) (slow : Bool) (s : State) :
    (timeFromHeader t h slow s).race = s.race := by
  cases t <;> simp [timeFromHeader]

@[simp] theorem headerWork_race (t : RingTest) (h : Header) (slow : Bool) (s : State) :
    (headerWork t h slow s).race = s.race := by
  unfold headerWork placingFromHeader phaseFromHeader
  dsimp only
  split_ifs <;> simp

@[simp] theorem nodeCycle_race (slow : Bool) (syms : List RxSym) (s : State) :
    (nodeCycle slow syms s).2.race = s.race := by
  unfold nodeCycle
  split
  · rfl
  · dsimp only
    split <;> simp [passUnmapped, passMapped]

@[simp] theorem nodeCollect_race (ended : Bool) (syms : List RxSym) (s : State) :
    (nodeCollect ended syms s).2.race = s.race := by
  obtain ⟨-, e⟩ | ⟨h, b, -, -, ⟨-, e⟩ | ⟨-, -, e⟩ | ⟨-, -, e⟩⟩ := nodeCollect_cases ended syms s
  · simp [e]
  · simp [e]
  · simp [e, recordSurveyed]
  · simp [e]

@[simp] theorem nodeTake_race (k : FrameKind) (ended slow : Bool) (syms : List RxSym) (s : State) :
    (nodeTake k ended slow syms s).race = s.race := by
  cases k <;> simp [nodeTake, forwarded]

/-! ## Frames as they are heard (R2, R4) -/

@[simp] theorem takeCut_cars (k : FrameKind) (slow : Bool) (syms : List RxSym) (sent : Option Nat) (s : State) :
    (takeCut k slow syms sent s).race.cars = s.race.cars := by
  unfold takeCut
  split_ifs
  · simp
  · simp
  · split
    · rfl
    · split <;> simp
  · rfl

@[simp] theorem cutFrame_cars (cut : Option CutFrame) (s : State) : (cutFrame cut s).race.cars = s.race.cars := by
  cases cut <;> simp [cutFrame]

@[simp] theorem hearCut_cars (c : CutFrame) (s : State) : (hearCut c s).race.cars = s.race.cars := by
  unfold hearCut
  split
  · split <;> simp
  · simp

/-- A frame heard lets the cars run on when its taking does. -/
theorem carsRunOn_hearFrame {take : State → State} (h : ∀ u, CarsRunOn u (take u)) (k : FrameKind) (f : RxFrame)
    (sent : Option Nat) (s : State) : CarsRunOn s (hearFrame k f sent take s) := by
  unfold hearFrame
  split
  · split
    · exact .trans (.of_cars (by simp)) (h _)
    · exact .of_cars (by simp)
  · exact .of_cars (by simp)

theorem carsRunOn_anchorFrame {take : State → State} (h : ∀ u, CarsRunOn u (take u)) (k : FrameKind) (f : RxFrame)
    (sent : Option Nat) (s : State) : CarsRunOn s (anchorFrame k f sent take s) := by
  have hhears (u : State) : CarsRunOn u (anchorHears k f sent take u) := by
    refine carsRunOn_hearFrame (fun v => ?_) k f sent u
    split_ifs
    · exact .of_cars (by simp)
    · exact h v
    · exact carsRunOn_refl v
  unfold anchorFrame
  split_ifs
  · split
    · exact carsRunOn_refl s
    · next l _ =>
      split
      · exact (CarsRunOn.of_cars (t := comeRound l s) rfl).trans (hhears _)
      · exact carsRunOn_refl s
  · exact hhears s
  · exact carsRunOn_refl s

theorem carsRunOn_nodeFrame (k : FrameKind) (f : RxFrame) (s : State) : CarsRunOn s (nodeFrame k f s) := by
  unfold nodeFrame
  split
  · exact carsRunOn_refl s
  · refine carsRunOn_hearFrame (fun u => ?_) k f none s
    split
    · exact .of_cars (by simp)
    · exact carsRunOn_refl u

end Sys2Proof.Machine
end

section
/-! Every step keeps the cars in the race: each command and event lets them run on, or empties the car table
(R82, R83, R91, R140, R141, R170, R179). -/

namespace Sys2Proof.Machine

open Sys2Proof Sys2Proof.Safety

/-- The cars run on, or the car table has been emptied. -/
def KeepsCars (s t : State) : Prop := CarsRunOn s t ∨ ∀ c, (carAt t c).state = .vacant

/-- A command or event completes, and the cars run on or the car table is emptied. -/
def CompletesKeepingCars (i : Instr) (s : State) : Prop := ∃ t, exec i s = .next t ∧ KeepsCars s t

theorem CarsRunOn.keeps {s t : State} (h : CarsRunOn s t) : KeepsCars s t := .inl h

theorem KeepsCars.of_cars {s t : State} (h : t.race.cars = s.race.cars) : KeepsCars s t := .inl (.of_cars h)

theorem carAt_emptied {s : State} (h : s.race.cars = List.replicate 8 Car.vacant) (c : Nat) :
    (carAt s c).state = .vacant := by
  have hvacant : carAt s c = Car.vacant := by
    rcases lt_or_ge c 8 with hc | hc
    · simp [carAt, h, List.getD_eq_getElem?_getD, hc, -List.reduceReplicate]
    · simp [carAt, h, List.getD_eq_getElem?_getD, hc, -List.reduceReplicate]
  rw [hvacant]
  rfl

theorem KeepsCars.of_emptied {s t : State} (h : t.race.cars = List.replicate 8 Car.vacant) : KeepsCars s t :=
  .inr (carAt_emptied h)

/-- Operations that leave the car table may stand before and behind. -/
theorem KeepsCars.between {s u v t : State} (hbefore : u.race.cars = s.race.cars) (h : KeepsCars u v)
    (hbehind : t.race.cars = v.race.cars) : KeepsCars s t := by
  have hu (c : Nat) : carAt u c = carAt s c := by simp only [carAt, hbefore]
  have hv (c : Nat) : carAt t c = carAt v c := by simp only [carAt, hbehind]
  rcases h with h | h
  · exact .inl fun c => by rw [hv c, ← hu c]; exact h c
  · exact .inr fun c => by rw [hv c]; exact h c

/-- A command of the cabinet port keeps the cars when what it does behind its tests keeps them. -/
theorem keepsCars_takeCommand (k : Cmd) {tests : State → List (Bool × RefusalReason)}
    {act : State → State → State × ReplyBody} (h : ∀ u, KeepsCars u (act u u).1) (s : State) :
    KeepsCars s (takeCommand k (fun s => tested (tests s) (act s) s) s) := by
  unfold takeCommand
  split
  · have htested : KeepsCars (dropFrame s) (tested (tests (dropFrame s)) (act (dropFrame s)) (dropFrame s)).1 := by
      unfold tested
      split
      · exact .of_cars rfl
      · exact h _
    exact .between (by simp) htested (by simp)
  · exact .of_cars rfl

/-- A command of the cabinet port that leaves the car table. -/
theorem keepsCars_command (k : Cmd) {tests : State → List (Bool × RefusalReason)}
    {act : State → State → State × ReplyBody} (h : ∀ u, (act u u).1.race.cars = u.race.cars) (s : State) :
    KeepsCars s (takeCommand k (fun s => tested (tests s) (act s) s) s) :=
  keepsCars_takeCommand k (fun u => .of_cars (h u)) s

/-- A timed event keeps the cars when its effect does. -/
theorem keepsCars_atInstant {remaining : Option Nat} {act : State → State} (h : ∀ u, CarsRunOn u (act u))
    (s : State) : KeepsCars s (atInstant remaining act s) := by
  obtain ⟨-, e⟩ | ⟨d, -, e⟩ := atInstant_cases remaining act s
  · exact .of_cars (by rw [e])
  · rw [e]
    exact ((CarsRunOn.of_cars (elapse_cars d s)).trans (h _)).keeps

/-! ## The station's own commands -/

@[simp] theorem enterListening_cars (s : State) : (enterListening s).race.cars = s.race.cars := by
  simp [enterListening]

@[simp] theorem beginAnchor_cars (s : State) : (beginAnchor s).race.cars = s.race.cars := by
  unfold beginAnchor turnToLoop
  dsimp only
  split_ifs <;> simp [placeBoundary]

@[simp] theorem enterStandby_cars (s : State) : (enterStandby s).race.cars = s.race.cars := by
  simp [enterStandby]

@[simp] theorem standbyCut_cars (cut : Option CutFrame) (s : State) :
    (standbyCut cut s).race.cars = s.race.cars := by
  cases cut <;> simp [standbyCut]

@[simp] theorem configureAct_cars (address role seats : Nat) (title revision : Half) (s : State) :
    (configureAct address role seats title revision s).1.race.cars = s.race.cars := by
  unfold configureAct done
  dsimp only
  split <;> simp

theorem restartBlocks_cars (s : State) : (restartBlocks s).race.cars = List.replicate 8 Car.vacant := rfl

theorem statusAct_cars (part : StatusPart) (s : State) : (statusAct part s).1.race.cars = s.race.cars := by
  unfold statusAct
  split <;> rfl

/-! ## Race, seat, bulk and table commands -/

theorem emptyRace_cars (ev : PhaseEvent) (s : State) :
    (emptyRace ev s).race.cars = List.replicate 8 Car.vacant := by
  unfold emptyRace
  dsimp only
  split <;> simp [emptiedRace, emptyTable, -List.reduceReplicate]

/-- Close Gathering vacates the ENTERED cars alone (R80). -/
theorem carsRunOn_vacateEntered {s t : State} (h : t.race.cars = (vacateEntered s.race).cars) : CarsRunOn s t := by
  refine .of_map (f := fun k => if k.state = .entered then Car.vacant else k) h fun k => ?_
  split
  · next hentered => exact runsOn_of_not_started (not_started_of_entered hentered) _
  · exact runsOn_refl k

/-- Admit gives a VACANT car (R100). -/
theorem admittedCar_vacant {s : State} {choice : CarChoice} {c : Nat} (h : admittedCar s.race choice = .ok c) :
    (carAt s c).state = .vacant := by
  cases choice with
  | any =>
    simp only [admittedCar] at h
    split at h
    · next d hd =>
      cases h
      simpa [carAt] using List.find?_some hd
    · cases h
  | car d =>
    simp only [admittedCar] at h
    split at h
    · next hvacant => cases h; exact hvacant
    · cases h

theorem carsRunOn_admitAct (choice : CarChoice) (s : State) : CarsRunOn s (admitAct choice s).1 := by
  unfold admitAct
  split
  · next hok =>
    exact .of_set (by simp [setCar]; rfl) (runsOn_of_not_started (not_started_of_vacant (admittedCar_vacant hok)) _)
  · exact carsRunOn_refl s
  · exact carsRunOn_refl s

theorem carsRunOn_joinAct (seat : Nat) (tag : List Byte) (s : State) : CarsRunOn s (joinAct seat tag s).1 := by
  unfold joinAct
  dsimp only
  split
  · exact .trans (.of_cars (by simp)) (carsRunOn_ownJoin _ _)
  · exact .of_cars (by simp [postUrgent])

theorem carsRunOn_leaveAct (seat : Nat) (s : State) : CarsRunOn s (leaveAct seat s).1 := by
  unfold leaveAct
  split
  · exact (carsRunOn_processLeave (address s) seat s).trans (.of_cars (by simp))
  · exact .of_cars (by simp [postUrgent])

theorem abortAct_cars (channel : Nat) (s : State) : (abortAct channel s).race.cars = s.race.cars := by
  unfold abortAct
  dsimp only
  split_ifs <;> simp

theorem keepsCars_localWrite (fits : Bool) (table : TableName) (start : Nat) (values : List Nat) (s : State) :
    KeepsCars s (takeCommand .tableWrite (localWrite fits table start values) s) := by
  cases table <;> exact keepsCars_command _ (fun _ => rfl) s

theorem keepsCars_localRead (fits : Bool) (table : TableName) (start count : Nat) (s : State) :
    KeepsCars s (takeCommand .tableRead (localRead fits table start count) s) := by
  cases table <;> exact keepsCars_command _ (fun _ => rfl) s

/-! ## Events that may change nothing -/

theorem exec_lossOfSignal_keepsCars (cut : Option CutFrame) (s : State) :
    CompletesKeepingCars (.lossOfSignal cut) s := by
  show ∃ t, execLossOfSignal cut s = .next t ∧ KeepsCars s t
  unfold execLossOfSignal
  split_ifs
  · exact ⟨_, rfl, .of_cars (by simp)⟩
  · exact ⟨_, rfl, .of_cars rfl⟩
  · exact ⟨_, rfl, .of_cars rfl⟩

theorem exec_fillRunLimit_keepsCars (s : State) : CompletesKeepingCars .fillRunLimit s := by
  show ∃ t, execFillRunLimit s = .next t ∧ KeepsCars s t
  unfold execFillRunLimit
  split
  · exact ⟨_, rfl, .of_cars (by simp)⟩
  · exact ⟨_, rfl, .of_cars rfl⟩

theorem exec_errorRunLimit_keepsCars (run : ErrorRun) (s : State) : CompletesKeepingCars (.errorRunLimit run) s := by
  show ∃ t, execErrorRunLimit run s = .next t ∧ KeepsCars s t
  unfold execErrorRunLimit errorsInside
  split
  · split
    · exact ⟨_, rfl, .of_cars (by simp)⟩
    · exact ⟨_, rfl, .of_cars rfl⟩
  · split
    · exact ⟨_, rfl, .of_cars (by split <;> simp)⟩
    · exact ⟨_, rfl, .of_cars rfl⟩

theorem exec_foreignFrame_keepsCars (k : FrameKind) (f : RxFrame) (sent : Option Nat) (s : State) :
    CompletesKeepingCars (.foreignFrame k f sent) s := by
  show ∃ t, execForeignFrame k f sent s = .next t ∧ KeepsCars s t
  unfold execForeignFrame
  split
  · exact ⟨_, rfl, .of_cars rfl⟩
  · exact ⟨_, rfl, (carsRunOn_anchorFrame (fun u => .of_cars (foreignJudged_cars k f sent u)) k f sent s).keeps⟩

theorem exec_fieldEdge_keepsCars (low : Nat) (s : State) : CompletesKeepingCars (.fieldEdge low) s := by
  show ∃ t, execFieldEdge low s = .next t ∧ KeepsCars s t
  unfold execFieldEdge
  split
  · exact ⟨_, rfl, .of_cars rfl⟩
  · exact ⟨_, rfl, .of_cars rfl⟩

@[simp] theorem offerBundle_cars (b : Bundle) (s : State) : (offerBundle b s).race.cars = s.race.cars := by
  unfold offerBundle
  split <;> simp

theorem exec_fieldComputationEnd_keepsCars (s : State) : CompletesKeepingCars .fieldComputationEnd s := by
  show ∃ t, execFieldComputationEnd s = .next t ∧ KeepsCars s t
  unfold execFieldComputationEnd
  split
  · exact ⟨_, rfl, .of_cars rfl⟩
  · exact ⟨_, rfl, .of_cars (by simp)⟩

theorem exec_commandByteWrite_keepsCars (b : Byte) (s : State) : CompletesKeepingCars (.commandByteWrite b) s := by
  show ∃ t, execCommandByteWrite b s = .next t ∧ KeepsCars s t
  unfold execCommandByteWrite
  split <;> exact ⟨_, rfl, .of_cars rfl⟩

theorem exec_reportByteRead_keepsCars (s : State) : CompletesKeepingCars .reportByteRead s := by
  show ∃ t, execReportByteRead s = .next t ∧ KeepsCars s t
  unfold execReportByteRead
  split <;> exact ⟨_, rfl, .of_cars rfl⟩

theorem exec_emptyFrame_keepsCars (s : State) : CompletesKeepingCars .emptyFrame s := by
  show ∃ t, execEmptyFrame s = .next t ∧ KeepsCars s t
  unfold execEmptyFrame
  split <;> exact ⟨_, rfl, .of_cars rfl⟩

theorem exec_damagedFrame_keepsCars (s : State) : CompletesKeepingCars .damagedFrame s := by
  show ∃ t, execDamagedFrame s = .next t ∧ KeepsCars s t
  unfold execDamagedFrame
  split
  · split
    · exact ⟨_, rfl, .of_cars (by simp)⟩
    · split
      · exact ⟨_, rfl, .of_cars (by simp)⟩
      · exact ⟨_, rfl, .of_cars rfl⟩
  · exact ⟨_, rfl, .of_cars rfl⟩

theorem exec_unknownCommand_keepsCars (code : Byte) (s : State) : CompletesKeepingCars (.unknownCommand code) s := by
  show ∃ t, execUnknownCommand code s = .next t ∧ KeepsCars s t
  unfold execUnknownCommand
  split
  · exact ⟨_, rfl, .of_cars (by simp)⟩
  · exact ⟨_, rfl, .of_cars rfl⟩

theorem exec_replyPlaced_keepsCars (s : State) : CompletesKeepingCars .replyPlaced s := by
  show ∃ t, execReplyPlaced s = .next t ∧ KeepsCars s t
  unfold execReplyPlaced
  split
  · exact ⟨_, rfl, .of_cars rfl⟩
  · split <;> exact ⟨_, rfl, .of_cars rfl⟩

theorem exec_reportPendingPlaced_keepsCars (s : State) : CompletesKeepingCars .reportPendingPlaced s := by
  show ∃ t, execReportPendingPlaced s = .next t ∧ KeepsCars s t
  unfold execReportPendingPlaced
  split
  · exact ⟨_, rfl, .of_cars rfl⟩
  · split <;> exact ⟨_, rfl, .of_cars rfl⟩

theorem exec_noticePlaced_keepsCars (s : State) : CompletesKeepingCars .noticePlaced s := by
  show ∃ t, execNoticePlaced s = .next t ∧ KeepsCars s t
  unfold execNoticePlaced
  split_ifs <;> exact ⟨_, rfl, .of_cars rfl⟩

/-! ## Every command and event, and the step -/

theorem exec_keepsCars (i : Instr) (s : State) : CompletesKeepingCars i s := by
  match i with
  | .powerReset => exact ⟨_, rfl, .of_emptied rfl⟩
  | .lossOfSignal cut => exact exec_lossOfSignal_keepsCars cut s
  | .fillRunLimit => exact exec_fillRunLimit_keepsCars s
  | .errorRunLimit run => exact exec_errorRunLimit_keepsCars run s
  | .nodeCycleFrame f => exact ⟨_, rfl, (carsRunOn_nodeFrame .cycle f s).keeps⟩
  | .silenceLimit => exact ⟨_, rfl, keepsCars_atInstant (fun u => .of_cars (silenceExpires_cars u)) s⟩
  | .cycleBoundary => exact ⟨_, rfl, keepsCars_atInstant (fun u => .of_cars (atBoundary_cars u)) s⟩
  | .returnMissLimit => exact ⟨_, rfl, keepsCars_atInstant (fun u => .of_cars (by simp)) s⟩
  | .cycleReturn f => exact ⟨_, rfl, (carsRunOn_anchorFrame (carsRunOn_anchorCycle f) .cycle f none s).keeps⟩
  | .foreignFrame kind f sent => exact exec_foreignFrame_keepsCars kind f sent s
  | .nodeCollectFrame f => exact ⟨_, rfl, (carsRunOn_nodeFrame .collect f s).keeps⟩
  | .collectReturn f trip => exact ⟨_, rfl, (carsRunOn_anchorFrame (carsRunOn_anchorCollect f trip) .collect f none s).keeps⟩
  | .linkWaitEnd => exact ⟨_, rfl, keepsCars_atInstant (fun _ => .of_cars (by rfl)) s⟩
  | .raceWaitEnd => exact ⟨_, rfl, keepsCars_atInstant (fun _ => .of_cars (by rfl)) s⟩
  | .raceTimeTop => exact ⟨_, rfl, keepsCars_atInstant (fun _ => .of_cars (by rfl)) s⟩
  | .goPulseEnd => exact ⟨_, rfl, keepsCars_atInstant (fun _ => .of_cars (by rfl)) s⟩
  | .goFire => exact ⟨_, rfl, keepsCars_atInstant carsRunOn_fireNow s⟩
  | .fieldEdge low => exact exec_fieldEdge_keepsCars low s
  | .fieldComputationEnd => exact exec_fieldComputationEnd_keepsCars s
  | .outstandingWaitLimit => exact ⟨_, rfl, .of_cars (by simp)⟩
  | .claimAgeLimit => exact ⟨_, rfl, keepsCars_atInstant (fun _ => .of_cars (by rfl)) s⟩
  | .closeDeadline => exact ⟨_, rfl, keepsCars_atInstant carsRunOn_takeDeadline s⟩
  | .lostCarLimit car => exact ⟨_, rfl, keepsCars_atInstant (carsRunOn_retireCar .lost car) s⟩
  | .referralTimeout => exact ⟨_, rfl, keepsCars_atInstant (fun u => .of_cars (decideReferral_cars _ u)) s⟩
  | .receiveIdleLimit e => exact ⟨_, rfl, keepsCars_atInstant (fun u => .of_cars (by simp)) s⟩
  | .commandByteWrite b => exact exec_commandByteWrite_keepsCars b s
  | .reportByteRead => exact exec_reportByteRead_keepsCars s
  | .emptyFrame => exact exec_emptyFrame_keepsCars s
  | .damagedFrame => exact exec_damagedFrame_keepsCars s
  | .unknownCommand code => exact exec_unknownCommand_keepsCars code s
  | .replyPlaced => exact exec_replyPlaced_keepsCars s
  | .reportPendingPlaced => exact exec_reportPendingPlaced_keepsCars s
  | .noticePlaced => exact exec_noticePlaced_keepsCars s
  | .lockChange b => exact ⟨_, rfl, .of_cars rfl⟩
  | .configure .. => exact ⟨_, rfl, keepsCars_command _ (fun u => configureAct_cars _ _ _ _ _ u) s⟩
  | .restart _ => exact ⟨_, rfl, keepsCars_takeCommand _ (fun u => .of_emptied (restartBlocks_cars u)) s⟩
  | .standby args => exact ⟨_, rfl, keepsCars_command _ (fun u => by dsimp only [done]; split <;> simp) s⟩
  | .resumeRing _ => exact ⟨_, rfl, keepsCars_command _ (fun u => by dsimp only [done]; split <;> simp [leaveStandby]) s⟩
  | .status _ part => exact ⟨_, rfl, keepsCars_command _ (fun u => statusAct_cars part u) s⟩
  | .survey _ => exact ⟨_, rfl, keepsCars_command _ (fun u => by simp) s⟩
  | .openGathering _ => exact ⟨_, rfl, keepsCars_command _ (fun u => by simp [done]) s⟩
  | .closeGathering _ => exact ⟨_, rfl, keepsCars_takeCommand _ (fun u => (carsRunOn_vacateEntered (by simp [done])).keeps) s⟩
  | .startRace .. => exact ⟨_, rfl, keepsCars_command _ (fun u => by simp [done]) s⟩
  | .abortRace _ => exact ⟨_, rfl, keepsCars_takeCommand _ (fun u => .of_emptied (emptyRace_cars .abortRace u)) s⟩
  | .hold _ => exact ⟨_, rfl, keepsCars_command _ (fun u => by simp [done]) s⟩
  | .resume _ => exact ⟨_, rfl, keepsCars_command _ (fun u => by simp [resumeAct]) s⟩
  | .clearRace _ => exact ⟨_, rfl, keepsCars_takeCommand _ (fun u => .of_emptied (emptyRace_cars .clearRace u)) s⟩
  | .raceSetupWrite .. => exact ⟨_, rfl, keepsCars_command _ (fun _ => rfl) s⟩
  | .raceSetupRead .. => exact ⟨_, rfl, keepsCars_command _ (fun _ => rfl) s⟩
  | .gridWrite .. => exact ⟨_, rfl, keepsCars_command _ (fun _ => rfl) s⟩
  | .gridRead .. => exact ⟨_, rfl, keepsCars_command _ (fun _ => rfl) s⟩
  | .poll .. => exact ⟨_, rfl, keepsCars_command _ (fun _ => rfl) s⟩
  | .clearStations _ => exact ⟨_, rfl, keepsCars_command _ (fun _ => rfl) s⟩
  | .admitCar _ choice => exact ⟨_, rfl, keepsCars_takeCommand _ (fun u => (carsRunOn_admitAct choice u).keeps) s⟩
  | .refuse _ => exact ⟨_, rfl, keepsCars_command _ (fun u => by simp [done]) s⟩
  | .join _ seat tag => exact ⟨_, rfl, keepsCars_takeCommand _ (fun u => (carsRunOn_joinAct seat tag u).keeps) s⟩
  | .leave _ seat => exact ⟨_, rfl, keepsCars_takeCommand _ (fun u => (carsRunOn_leaveAct seat u).keeps) s⟩
  | .setReady .. => exact ⟨_, rfl, keepsCars_command _ (fun _ => rfl) s⟩
  | .requestAttention .. => exact ⟨_, rfl, keepsCars_command _ (fun _ => rfl) s⟩
  | .withdrawAttention _ => exact ⟨_, rfl, keepsCars_command _ (fun _ => rfl) s⟩
  | .localTrigger _ => exact ⟨_, rfl, keepsCars_command _ (fun _ => rfl) s⟩
  | .carReport .. => exact ⟨_, rfl, keepsCars_command _ (fun _ => rfl) s⟩
  | .game .. => exact ⟨_, rfl, keepsCars_command _ (fun _ => rfl) s⟩
  | .bulkOpen .. => exact ⟨_, rfl, keepsCars_command _ (fun _ => rfl) s⟩
  | .bulkData .. => exact ⟨_, rfl, keepsCars_command _ (fun u => by simp [dataAct]) s⟩
  | .bulkAbort _ channel => exact ⟨_, rfl, keepsCars_command _ (fun u => abortAct_cars channel u) s⟩
  | .tableWrite fits table start values => exact ⟨_, rfl, keepsCars_localWrite fits table start values s⟩
  | .tableRead fits table start count => exact ⟨_, rfl, keepsCars_localRead fits table start count s⟩
  | .remoteTableWrite .. => exact ⟨_, rfl, keepsCars_command _ (fun _ => rfl) s⟩
  | .remoteTableRead .. => exact ⟨_, rfl, keepsCars_command _ (fun _ => rfl) s⟩
  | .protectOn _ => exact ⟨_, rfl, keepsCars_command _ (fun _ => rfl) s⟩
  | .protectOff _ => exact ⟨_, rfl, keepsCars_command _ (fun _ => rfl) s⟩
  | .protectionListWrite .. => exact ⟨_, rfl, keepsCars_command _ (fun _ => rfl) s⟩

/-- A tick, too: one of the events that are due, or a µs that passes. -/
theorem tick_keepsCars (s : State) : ∃ t, tick s = .next t ∧ KeepsCars s t := by
  unfold tick
  split
  · exact ⟨_, rfl, .of_cars (elapse_cars 1 s)⟩
  · next first rest _ =>
    obtain ⟨t, hexec, hkeeps⟩ := exec_keepsCars (pickDue first rest s).1 (pickDue first rest s).2
    refine ⟨t, hexec, .between ?_ hkeeps rfl⟩
    unfold pickDue
    split <;> simp

theorem step_keepsCars (s : State) : ∃ t, step s = .next t ∧ KeepsCars s t := by
  unfold step
  split
  · exact tick_keepsCars s
  · next i rest _ =>
    obtain ⟨t, hexec, hkeeps⟩ := exec_keepsCars i (s.withPending rest)
    exact ⟨t, hexec, .between rfl hkeeps rfl⟩

/-- Settles O59: a step lets every car run on, or empties the car table. -/
theorem stepKeepsRacingCars : Obligations.StepKeepsRacingCars := by
  intro s t c hracing hstep
  obtain ⟨u, hu, hkeeps⟩ := step_keepsCars s
  obtain rfl : u = t := Host.Outcome.next.inj (hu.symm.trans hstep)
  rcases hkeeps with hrun | hvacant
  · exact (hrun c).upheld hracing
  · exact .inl (hvacant c)

end Sys2Proof.Machine
end

section
/-! The tests of the cabinet port's commands in their order: NOT CONFIGURED, MALFORMED for the frame's length, and ROLE
for the anchor's commands (chapter 11, R79, R89, R90, R163, R169, R174). -/

namespace Sys2Proof.Machine

open Sys2Proof Sys2Proof.Safety

/-! ## The tests of each command -/

/-- The tests of a local Table Write, by the table that it names (R173). -/
def localWriteTests (fits : Bool) (table : TableName) (n : Nat) (s : State) : List (Bool × RefusalReason) :=
  match table with
  | .settings => baseTests fits s ++ [(countIn n 12, .malformed)]
  | .raceSetup => tableWriteTests fits n 9 [.idle] s
  | .grid => tableWriteTests fits n 30 gridPhases s
  | .unknown _ => baseTests fits s ++ [(false, .malformed)]

/-- The tests of a local Table Read, by the table that it names (R173). -/
def localReadTests (fits : Bool) (table : TableName) (n : Nat) (s : State) : List (Bool × RefusalReason) :=
  match table with
  | .settings => [(fits, .malformed), (countIn n 20, .malformed)]
  | .raceSetup => tableReadTests fits n 9 s
  | .grid => tableReadTests fits n 30 s
  | .unknown _ => baseTests fits s ++ [(false, .malformed)]

/-- The tests of a command of the cabinet port, in their order; an event or a frame has none. -/
def portTests (i : Instr) (s : State) : List (Bool × RefusalReason) :=
  match i with
  | .configure fits address role seats _ _ =>
    [(fits, .malformed), (!configured s, .configured), (configureInRange address role seats, .range)]
  | .restart fits => baseTests fits s
  | .standby args => baseTests args.fits s ++ [(nodeRole s, .role)]
  | .resumeRing fits => baseTests fits s ++ [(nodeRole s, .role)]
  | .status fits _ => [(fits, .malformed)]
  | .survey fits => anchorTests fits s ++ [(surveyPhase s, .phase), (s.survey.run.isNone, .busy)]
  | .openGathering fits => anchorTests fits s ++ [(phaseIn s [.idle], .phase)]
  | .closeGathering fits => anchorTests fits s ++ [(phaseIn s [.gathering], .phase)]
  | .startRace fits _ => anchorTests fits s ++ [(phaseIn s [.gathering], .phase), (someEntered s, .phase)]
  | .abortRace fits => anchorTests fits s ++ [(phaseIn s [.countdown, .running, .closing], .phase)]
  | .hold fits => anchorTests fits s ++ [(phaseIn s [.running, .closing], .phase)]
  | .resume fits => anchorTests fits s ++ [(phaseIn s [.running, .closing] && s.race.causes.command, .phase)]
  | .clearRace fits => anchorTests fits s ++ [(phaseIn s [.results], .phase)]
  | .raceSetupWrite fits _ values => tableWriteTests fits values.length 9 [.idle] s
  | .raceSetupRead fits _ count => tableReadTests fits count 9 s
  | .gridWrite fits _ values => tableWriteTests fits values.length 30 gridPhases s
  | .gridRead fits _ count => tableReadTests fits count 30 s
  | .poll fits station => anchorTests fits s ++ unicastTests station s ++ roomTest .urgent s
  | .clearStations fits => anchorTests fits s ++ [(phaseIn s [.idle], .phase)] ++ roomTest .urgent s
  | .admitCar fits choice =>
    anchorTests fits s ++ [(referralPending s, .noReferral), (choiceKnown choice, .malformed)]
  | .refuse fits => anchorTests fits s ++ [(referralPending s, .noReferral)]
  | .join fits seat _ =>
    posterTests fits s ++
      [(seatFree s seat, .seat), (ringReady s, .notMapped), (ownJoinRoom s, .busy), (urgentRoom s, .queueFull)]
  | .leave fits seat =>
    posterTests fits s ++
      [(seatTaken s seat, .seat), (!leavePending s seat, .busy), (ringReady s, .notMapped), (urgentRoom s, .queueFull)]
  | .setReady fits value => baseTests fits s ++ [(decide (value ≤ 1), .malformed)]
  | .requestAttention fits code => baseTests fits s ++ [(decide (code ≤ 127), .malformed)]
  | .withdrawAttention fits => baseTests fits s
  | .localTrigger fits => baseTests fits s ++ [(racePhase s == .idle, .phase)]
  | .carReport fits seat _ => baseTests fits s ++ [(decide (seat < seatCount s), .seat)]
  | .game fits dest cls tag payload => gameTests fits dest cls tag payload s
  | .bulkOpen fits channel peer total _ _ =>
    posterTests fits s ++
      [(channelKnown channel && decide (peer < 15) && total != 0, .malformed), (peer != address s, .self),
       (ringReady s, .notMapped), (!channelActive s channel, .busy)]
  | .bulkData fits channel bytes => dataTests fits channel bytes s
  | .bulkAbort fits channel => baseTests fits s ++ [(channelKnown channel, .malformed)]
  | .tableWrite fits table _ values => localWriteTests fits table values.length s
  | .tableRead fits table _ count => localReadTests fits table count s
  | .remoteTableWrite fits station table _ values => remoteTests fits station table values.length 10 s
  | .remoteTableRead fits station table _ count => remoteTests fits station table count 20 s
  | .protectOn fits => baseTests fits s
  | .protectOff fits => baseTests fits s ++ [(unlocked s, .locked)]
  | .protectionListWrite fits _ unknown => baseTests fits s ++ [(!unknown, .malformed), (unlocked s, .locked)]
  | _ => []

/-- Every command of the cabinet port is taken by its tests (R163). -/
theorem exec_portTests {i : Instr} {k : Cmd} (h : portCommand i = some k) :
    ∃ act : State → State → State × ReplyBody,
      ∀ s, exec i s = .next (takeCommand k (fun s => tested (portTests i s) (act s) s) s) := by
  cases i with
  | tableWrite fits table start values =>
    cases h
    cases table <;> exact ⟨_, fun _ => rfl⟩
  | tableRead fits table start count =>
    cases h
    cases table <;> exact ⟨_, fun _ => rfl⟩
  | _ => cases h <;> exact ⟨_, fun _ => rfl⟩

/-- A command of the cabinet port that can be taken is refused with the reason of the first test that it fails. -/
theorem refused_of_portTests {i : Instr} {k : Cmd} {r : RefusalReason} {s : State} (h : portCommand i = some k)
    (htake : canTake s = true) (hfails : firstRefusal (portTests i (dropFrame s)) = some r) : Refused k i r s := by
  obtain ⟨act, hexec⟩ := exec_portTests h
  exact (hexec s).trans (congrArg Host.Outcome.next (takeCommand_refused k act s htake hfails))

/-! ## The tests that come first -/

/-- A test that fails at the head of a list of tests is the first to fail in the whole list. -/
theorem firstRefusal_of_isPrefix {l m : List (Bool × RefusalReason)} {r : RefusalReason} (hlm : l <+: m)
    (h : firstRefusal l = some r) : firstRefusal m = some r := by
  obtain ⟨n, rfl⟩ := hlm
  simp [firstRefusal_append, h]

theorem firstRefusal_baseTests_unconfigured (fits : Bool) {s : State} (h : configured s = false) :
    firstRefusal (baseTests fits s) = some .notConfigured := by simp [baseTests, h]

theorem firstRefusal_baseTests_misfit {s : State} (h : configured s = true) :
    firstRefusal (baseTests false s) = some .malformed := by simp [baseTests, h]

theorem firstRefusal_anchorTests_role {s : State} (hc : configured s = true) (h : actingAnchor s = false) :
    firstRefusal (anchorTests true s) = some .role := by simp [anchorTests, baseTests, hc, h]

/-- NOT CONFIGURED and the length come first of every command but Configure, Status and the table reads
(R163, R169). -/
theorem baseTests_isPrefix_portTests {i : Instr} {k : Cmd} (h : portCommand i = some k)
    (hk : takenUnconfigured k = false) (s : State) : baseTests (frameFits i) s <+: portTests i s := by
  cases i with
  | tableWrite fits table start values => cases table <;> exact ⟨_, rfl⟩
  | configure => cases h; cases hk
  | status => cases h; cases hk
  | raceSetupRead => cases h; cases hk
  | gridRead => cases h; cases hk
  | tableRead => cases h; cases hk
  | _ => cases h <;> exact ⟨_, rfl⟩

/-- ROLE comes behind them of every command that the station must act as anchor for (R79, R174). -/
theorem anchorTests_isPrefix_portTests {i : Instr} {k : Cmd} (h : portCommand i = some k)
    (hk : anchorCommand k = true) (s : State) : anchorTests (frameFits i) s <+: portTests i s := by
  cases i with
  | survey | openGathering | closeGathering | startRace | abortRace | hold | resume | clearRace | poll | clearStations
  | admitCar | refuse | remoteTableWrite | remoteTableRead => exact ⟨_, rfl⟩
  | _ => cases h <;> cases hk

/-- A frame whose length does not suit its command is MALFORMED at a configured station, whatever the command
(R163). -/
theorem firstRefusal_portTests_misfit {i : Instr} {k : Cmd} {s : State} (h : portCommand i = some k)
    (hfits : frameFits i = false) (hc : configured s = true) : firstRefusal (portTests i s) = some .malformed := by
  cases htaken : takenUnconfigured k with
  | false =>
    have hlead := baseTests_isPrefix_portTests h htaken s
    rw [hfits] at hlead
    exact firstRefusal_of_isPrefix hlead (firstRefusal_baseTests_misfit hc)
  | true =>
    cases i with
    | configure | status | raceSetupRead | gridRead => cases hfits; rfl
    | tableRead fits table start count =>
      cases hfits
      cases table with
      | unknown n => exact firstRefusal_of_isPrefix ⟨_, rfl⟩ (firstRefusal_baseTests_misfit hc)
      | _ => rfl
    | _ => cases h <;> cases htaken

/-! ## Writes of the race setup and the grid -/

theorem countIn_of_mem {n size : Nat} (hlo : 1 ≤ n) (hhi : n ≤ size) : countIn n size = true := by
  simp [countIn, hlo, hhi]

/-- Behind the count of its values a write of the race setup or the grid asks for the role (R79, R89, R90). -/
theorem firstRefusal_tableWriteTests_role {n size : Nat} {phases : List Phase} {s : State} (hc : configured s = true)
    (hcount : countIn n size = true) (h : actingAnchor s = false) :
    firstRefusal (tableWriteTests true n size phases s) = some .role := by
  simp [tableWriteTests, baseTests, hc, hcount, h]

/-- Settles O5: each refusal is that of the first test that fails, and the tests in question come first. -/
theorem portCommandsAreTestedInOrder : Obligations.PortCommandsAreTestedInOrder := by
  refine ⟨?unconfigured, ?misfit, ?role, ?writes⟩
  case unconfigured =>
    intro c k s hcommand htaken htake hc
    exact refused_of_portTests hcommand htake (firstRefusal_of_isPrefix (baseTests_isPrefix_portTests hcommand htaken _)
      (firstRefusal_baseTests_unconfigured (s := dropFrame s) _ hc))
  case misfit =>
    rintro c k s hcommand hfits ⟨htake, hc⟩
    exact refused_of_portTests hcommand htake (firstRefusal_portTests_misfit (s := dropFrame s) hcommand hfits hc)
  case role =>
    rintro c k s hcommand hanchor hfits ⟨htake, hc⟩ hact
    have hlead := anchorTests_isPrefix_portTests hcommand hanchor (dropFrame s)
    rw [hfits] at hlead
    exact refused_of_portTests hcommand htake
      (firstRefusal_of_isPrefix hlead (firstRefusal_anchorTests_role (s := dropFrame s) hc hact))
  case writes =>
    rintro s start values ⟨htake, hc⟩ hact hlo
    exact ⟨fun hhi => refused_of_portTests rfl htake
        (firstRefusal_tableWriteTests_role (s := dropFrame s) hc (countIn_of_mem hlo hhi) hact),
      fun hhi => refused_of_portTests rfl htake
        (firstRefusal_tableWriteTests_role (s := dropFrame s) hc (countIn_of_mem hlo hhi) hact)⟩

end Sys2Proof.Machine
end

section
/-! Reads and writes of the race setup, the grid and the settings by the cabinet port: consecutive entries that wrap
round a table, and the tests behind which they are taken (chapters 05 and 11, R88 to R90, R172, R173). -/

namespace Sys2Proof.Machine

open Sys2Proof Sys2Proof.Safety

/-! ## Consecutive places of a table -/

theorem wrapPlaces_eq (size start n : Nat) :
    wrapPlaces size start n = (List.range n).map fun k => (start + k) % size := by
  simp [wrapPlaces, Nat.mod_add_mod]

theorem wrapPlaces_getD (size start : Nat) {n k : Nat} (h : k < n) :
    (wrapPlaces size start n).getD k 0 = (start + k) % size := by
  simp [wrapPlaces_eq, List.getD_eq_getElem?_getD, h]

/-- No place stands twice among as many as the table has. -/
theorem wrapPlaces_nodup {size n : Nat} (start : Nat) (h : n ≤ size) : (wrapPlaces size start n).Nodup := by
  rw [wrapPlaces_eq]
  refine List.Nodup.map_on (fun i hi j hj hij => ?_) List.nodup_range
  rw [List.mem_range] at hi hj
  have hmod : i % size = j % size := Nat.ModEq.add_left_cancel' start hij
  rwa [Nat.mod_eq_of_lt (hi.trans_le h), Nat.mod_eq_of_lt (hj.trans_le h)] at hmod

/-- The entries read are those of consecutive places. -/
theorem readAt_wrapPlaces_getD (table : List Nat) (size start : Nat) {n k : Nat} (h : k < n) :
    (readAt table (wrapPlaces size start n)).getD k 0 = table.getD ((start + k) % size) 0 := by
  simp [readAt, wrapPlaces_eq, List.getD_eq_getElem?_getD, h]

/-- A write stores each value at consecutive entries, clamped into the range of its entry. -/
theorem writeAt_wrapPlaces_getD (range : Nat → Nat × Nat) (start : Nat) {table values : List Nat}
    (hn : values.length ≤ table.length) {k : Nat} (hk : k < values.length) :
    (writeAt range table ((wrapPlaces table.length start values.length).zip values)).getD
        ((start + k) % table.length) 0 =
      clamp (range ((start + k) % table.length)).1 (range ((start + k) % table.length)).2 (values.getD k 0) := by
  rw [← wrapPlaces_getD table.length start hk]
  exact writeAt_getD (wrapPlaces_nodup start hn) (length_wrapPlaces _ _ _) (wrapPlaces_lt _ _ _ (by omega)) hk

/-- A write leaves every entry that it does not reach. -/
theorem writeAt_wrapPlaces_other (range : Nat → Nat × Nat) (start size : Nat) (table values : List Nat) {i : Nat}
    (h : ∀ k < values.length, (start + k) % size ≠ i) :
    (writeAt range table ((wrapPlaces size start values.length).zip values)).getD i 0 = table.getD i 0 := by
  refine writeAt_other _ _ _ _ ?_
  rintro ⟨j, v⟩ hp rfl
  have hplace := (List.of_mem_zip hp).1
  rw [wrapPlaces_eq, List.mem_map] at hplace
  obtain ⟨k, hk, hj⟩ := hplace
  exact h k (List.mem_range.1 hk) hj

theorem countIn_eq_false {n size : Nat} (h : n < 1 ∨ size < n) : countIn n size = false := by
  rw [← Bool.not_eq_true, countIn_iff]
  omega

/-! ## Reads (R89, R90, R173) -/

section
variable {s : State} {n size : Nat}

theorem firstRefusal_tableReadTests_count (h : countIn n size = false) :
    firstRefusal (tableReadTests true n size s) = some .malformed := by simp [tableReadTests, h]

theorem firstRefusal_tableReadTests_role (hcount : countIn n size = true) (ha : anchorRole s = false)
    (hc : configured s = true) : firstRefusal (tableReadTests true n size s) = some .role := by
  simp [tableReadTests, hcount, ha, hc]

/-- The race setup and the grid are read at an anchor and at an UNCONFIGURED station. -/
theorem firstRefusal_tableReadTests (hcount : countIn n size = true) (h : anchorRole s = true ∨ configured s = false) :
    firstRefusal (tableReadTests true n size s) = none := by
  rcases h with h | h <;> simp [tableReadTests, hcount, h]

end

/-- Settles O42: a read that its tests pass returns the entries of consecutive places. -/
theorem tableReadsReturnEntries : Obligations.TableReadsReturnEntries := by
  refine ⟨fun s start count htake => ⟨fun h => ?setupCount, fun h => ?gridCount, fun h => ?settingsCount⟩,
    fun s start count htake hlo => ⟨fun hwhere hhi => ?setup, fun hwhere hhi => ?grid, fun ha hc => ⟨fun hhi => ?setupRole,
      fun hhi => ?gridRole⟩, fun hhi => ?settings⟩⟩
  case setupCount | gridCount =>
    have hcount := firstRefusal_tableReadTests_count (s := dropFrame s) (countIn_eq_false h)
    exact ⟨refused_of_portTests rfl htake hcount, refused_of_portTests rfl htake hcount⟩
  case settingsCount =>
    refine refused_of_portTests rfl htake ?_
    simp [portTests, localReadTests, countIn_eq_false h]
  case setupRole | gridRole =>
    have hrole := firstRefusal_tableReadTests_role (s := dropFrame s) (countIn_of_mem hlo hhi) ha hc
    exact ⟨refused_of_portTests rfl htake hrole, refused_of_portTests rfl htake hrole⟩
  case setup =>
    have hpass := firstRefusal_tableReadTests (s := dropFrame s) (countIn_of_mem hlo hhi) hwhere
    refine ⟨readAt s.race.setup (wrapPlaces 9 start count), ?_, by simp,
      fun k hk => readAt_wrapPlaces_getD _ _ _ hk⟩
    rintro c k (⟨rfl, rfl⟩ | ⟨rfl, rfl⟩)
    · exact congrArg Host.Outcome.next (takeCommand_passed _ (fun _ => readSetup start count) s htake hpass)
    · exact congrArg Host.Outcome.next (takeCommand_passed _ (fun _ => readSetup start count) s htake hpass)
  case grid =>
    have hpass := firstRefusal_tableReadTests (s := dropFrame s) (countIn_of_mem hlo hhi) hwhere
    refine ⟨readAt s.race.grid (wrapPlaces 30 start count), ?_, by simp,
      fun k hk => readAt_wrapPlaces_getD _ _ _ hk⟩
    rintro c k (⟨rfl, rfl⟩ | ⟨rfl, rfl⟩)
    · exact congrArg Host.Outcome.next (takeCommand_passed _ (fun _ => readGrid start count) s htake hpass)
    · exact congrArg Host.Outcome.next (takeCommand_passed _ (fun _ => readGrid start count) s htake hpass)
  case settings =>
    have hpass : firstRefusal [(true, .malformed), (countIn count 20, .malformed)] = none := by
      simp [countIn_of_mem hlo hhi]
    exact ⟨readAt s.settings.entries (wrapPlaces 20 start count),
      congrArg Host.Outcome.next (takeCommand_passed _ (fun _ => readLocal start count) s htake hpass), by simp,
      fun k hk => readAt_wrapPlaces_getD _ _ _ hk⟩

/-! ## Writes (R89, R90, R173) -/

section
variable {s : State} {n size : Nat} {phases : List Phase}

theorem firstRefusal_tableWriteTests_count (hc : configured s = true) (h : countIn n size = false) :
    firstRefusal (tableWriteTests true n size phases s) = some .malformed := by simp [tableWriteTests, baseTests, hc, h]

theorem firstRefusal_tableWriteTests_phase (hcount : countIn n size = true) (ha : actingAnchor s = true)
    (h : s.race.phase ∉ phases) : firstRefusal (tableWriteTests true n size phases s) = some .phase := by
  simp [tableWriteTests, baseTests, configured_of_actingAnchor ha, hcount, ha, phaseIn, h]

/-- The race setup and the grid are written at an acting anchor in the table's phases. -/
theorem firstRefusal_tableWriteTests (hcount : countIn n size = true) (ha : actingAnchor s = true)
    (h : s.race.phase ∈ phases) : firstRefusal (tableWriteTests true n size phases s) = none := by
  simp [tableWriteTests, baseTests, configured_of_actingAnchor ha, hcount, ha, phaseIn, h]

end

/-- Settles O41: a write that its tests pass stores its clamped values at distinct places of the table. -/
theorem tableWritesStore : Obligations.TableWritesStore := by
  refine ⟨fun s start values ⟨htake, ha⟩ hlo => ⟨fun hphase hhi hlen => ?setup, fun hphase hhi hlen => ?grid⟩,
    fun s start values ⟨htake, hc⟩ => ⟨fun h => ?setupCount, fun h => ?gridCount, fun h => ?settingsCount,
      fun n => ?unknown, fun hlo hhi => ⟨fun ha => ?setupRole, fun ha hphase => ?setupPhase⟩,
      fun hlo hhi => ⟨fun ha => ?gridRole, fun ha hidle hgathering => ?gridPhase⟩⟩,
    fun s start values ⟨htake, hc⟩ hlo hhi hlen => ?settings⟩
  case setup =>
    have hpass := firstRefusal_tableWriteTests (s := dropFrame s) (phases := [.idle]) (countIn_of_mem hlo hhi) ha
      (List.mem_singleton.2 hphase)
    let table := writeAt setupRange s.race.setup ((wrapPlaces 9 start values.length).zip values)
    refine ⟨table, readAt table (wrapPlaces 9 start values.length), ?_, by simp [table, hlen], by simp,
      fun k hk => ⟨?_, readAt_wrapPlaces_getD _ _ _ hk⟩, fun i _ => writeAt_wrapPlaces_other _ _ _ _ _⟩
    · rintro c k (⟨rfl, rfl⟩ | ⟨rfl, rfl⟩)
      · exact congrArg Host.Outcome.next (takeCommand_passed _ (fun _ => writeSetup start values) s htake hpass)
      · exact congrArg Host.Outcome.next (takeCommand_passed _ (fun _ => writeSetup start values) s htake hpass)
    · have hstored := writeAt_wrapPlaces_getD setupRange start (hlen.symm ▸ hhi) hk
      rwa [hlen] at hstored
  case grid =>
    have hpass := firstRefusal_tableWriteTests (s := dropFrame s) (phases := gridPhases) (countIn_of_mem hlo hhi) ha
      (by simpa [gridPhases] using hphase)
    let table := writeAt gridRange s.race.grid ((wrapPlaces 30 start values.length).zip values)
    refine ⟨table, readAt table (wrapPlaces 30 start values.length), ?_, by simp [table, hlen], by simp,
      fun k hk => ⟨?_, readAt_wrapPlaces_getD _ _ _ hk⟩, fun i _ => writeAt_wrapPlaces_other _ _ _ _ _⟩
    · rintro c k (⟨rfl, rfl⟩ | ⟨rfl, rfl⟩)
      · exact congrArg Host.Outcome.next (takeCommand_passed _ (fun _ => writeGrid start values) s htake hpass)
      · exact congrArg Host.Outcome.next (takeCommand_passed _ (fun _ => writeGrid start values) s htake hpass)
    · have hstored := writeAt_wrapPlaces_getD gridRange start (hlen.symm ▸ hhi) hk
      rw [hlen] at hstored
      simpa [clamp, gridRange] using hstored
  case setupCount | gridCount =>
    have hcount (phases : List Phase) :=
      firstRefusal_tableWriteTests_count (s := dropFrame s) (phases := phases) hc (countIn_eq_false h)
    exact ⟨refused_of_portTests rfl htake (hcount _), refused_of_portTests rfl htake (hcount _)⟩
  case settingsCount =>
    refine refused_of_portTests rfl htake ?_
    simp [portTests, localWriteTests, baseTests, countIn_eq_false h, show configured (dropFrame s) = true from hc]
  case unknown =>
    refine refused_of_portTests rfl htake ?_
    simp [portTests, localWriteTests, baseTests, show configured (dropFrame s) = true from hc]
  case setupRole | gridRole =>
    exact refused_of_portTests rfl htake
      (firstRefusal_tableWriteTests_role (s := dropFrame s) hc (countIn_of_mem hlo hhi) ha)
  case setupPhase =>
    exact refused_of_portTests rfl htake
      (firstRefusal_tableWriteTests_phase (s := dropFrame s) (countIn_of_mem hlo hhi) ha (by simpa using hphase))
  case gridPhase =>
    exact refused_of_portTests rfl htake
      (firstRefusal_tableWriteTests_phase (s := dropFrame s) (countIn_of_mem hlo hhi) ha
        (by simpa [gridPhases] using ⟨hidle, hgathering⟩))
  case settings =>
    have hpass : firstRefusal (baseTests true (dropFrame s) ++ [(countIn values.length 12, .malformed)]) = none := by
      simp [baseTests, countIn_of_mem hlo hhi, show configured (dropFrame s) = true from hc]
    let places := writablePlaces start values.length
    let table := writeAt settingRange s.settings.entries (places.zip values)
    have hlt (i : Nat) (hi : i ∈ places) : i < 12 := writablePlaces_lt hi
    have hother {i : Nat} (hi : i ∉ places) : table.getD i 0 = s.settings.entries.getD i 0 :=
      writeAt_other _ _ _ _ fun p hp hpi => hi (hpi ▸ (List.of_mem_zip hp).1)
    exact ⟨table, places, writablePlaces_eq start values.length,
      congrArg Host.Outcome.next (takeCommand_passed _ (fun _ => writeLocal start values) s htake hpass),
      by simp [table, hlen], length_writablePlaces hhi,
      fun k hk => writeAt_getD (writablePlaces_nodup _ _) (length_writablePlaces hhi)
        (fun i hi => by have := hlt i hi; omega) hk,
      fun i _ hi => hother hi, fun i hi => hother fun hmem => by have := hlt i hmem; omega⟩

end Sys2Proof.Machine
end

section
/-! Cars that leave RACING: the close deadline, which ends the race, and the retirement of a silent car (chapters 07 and
09, R92, R93, R144, R146, R147, R149). -/

namespace Sys2Proof.Machine

open Sys2Proof Sys2Proof.Safety

/-! ## The car table and the finish list -/

/-- The cars of the table that are RACING are those read as such. -/
theorem exists_racing_iff (s : State) :
    (∃ k ∈ s.race.cars, k.state = .racing) ↔ ∃ c, (carAt s c).state = .racing := by
  constructor
  · rintro ⟨k, hk, hracing⟩
    obtain ⟨c, hc, rfl⟩ := List.mem_iff_getElem.1 hk
    exact ⟨c, by simpa [carAt, List.getD_eq_getElem?_getD, hc] using hracing⟩
  · rintro ⟨c, hracing⟩
    rcases lt_or_ge c s.race.cars.length with hc | hc
    · exact ⟨s.race.cars[c], List.getElem_mem hc, by simpa [carAt, List.getD_eq_getElem?_getD, hc] using hracing⟩
    · simp [carAt, List.getD_eq_getElem?_getD, hc, Car.vacant] at hracing

theorem lt_of_racing {s : State} {c : Nat} (h : (carAt s c).state = .racing) : c < s.race.cars.length := by
  rcases lt_or_ge c s.race.cars.length with hc | hc
  · exact hc
  · simp [carAt, List.getD_eq_getElem?_getD, hc, Car.vacant] at h

/-- Behind the change of one car to a state other than RACING, the RACING cars are the others. -/
theorem exists_racing_set_iff {s : State} {l : List Car} {c : Nat} {k : Car} (h : l = s.race.cars.set c k)
    (hk : k.state ≠ .racing) : (∃ k ∈ l, k.state = .racing) ↔ ∃ b, b ≠ c ∧ (carAt s b).state = .racing := by
  let t := s.withRace { s.race with cars := l }
  have ht : t.race.cars = s.race.cars.set c k := h
  refine (exists_racing_iff t).trans ⟨?_, ?_⟩
  · rintro ⟨b, hracing⟩
    have hne : b ≠ c := by
      rintro rfl
      have hb : b < s.race.cars.length := by
        have := lt_of_racing hracing
        rwa [ht, List.length_set] at this
      rw [carAt_of_set ht hb] at hracing
      exact hk hracing
    exact ⟨b, hne, carAt_of_set_ne ht hne ▸ hracing⟩
  · rintro ⟨b, hne, hracing⟩
    exact ⟨b, (carAt_of_set_ne ht hne).symm ▸ hracing⟩

/-- The confirmation test changes neither the cars of the finish list nor their times. -/
theorem confirmFrom_map {α : Type} (f : FinishEntry → α) (hf : ∀ e : FinishEntry, f { e with confirmed := true } = f e)
    (stamps : List Micros) (l : List FinishEntry) : (confirmFrom stamps l).map f = l.map f := by
  induction l with
  | nil => rfl
  | cons e rest ih =>
    rw [confirmFrom]
    split
    · simp [ih, hf]
    · rfl

/-- With no car RACING every entry is confirmed (R144). -/
theorem confirmFrom_nil (l : List FinishEntry) :
    confirmFrom [] l = l.map fun e => { e with confirmed := true } := by
  induction l with
  | nil => rfl
  | cons e rest ih => simp [confirmFrom, ih]

theorem racingStamps_eq_nil {r : RaceControl} (h : ¬ ∃ k ∈ r.cars, k.state = .racing) : racingStamps r = [] := by
  simp only [racingStamps, List.map_eq_nil_iff, List.filter_eq_nil_iff, beq_iff_eq]
  exact fun k hk hracing => h ⟨k, hk, hracing⟩

/-- A PLACING report tells of the finish list and the cars alone. -/
theorem placingReport_congr (cause : PlacingCause) {a b x y : RaceControl} (hfinish : a.finish = b.finish)
    (hcars : a.cars = b.cars) (hfinish' : x.finish = y.finish) (hcars' : x.cars = y.cars) :
    placingReport cause a x = placingReport cause b y := by
  simp only [placingReport, hfinish, hcars, hfinish', hcars']

/-! ## The close deadline (R145 to R147) -/

/-- Every RACING car UNPLACED (R146). -/
def unplaceRacing (r : RaceControl) : RaceControl :=
  { r with cars := r.cars.map fun k => if k.state = .racing then unplacedCar k else k }

/-- The race behind the deadline: the confirmation test follows (R144, R146). -/
def unplacedRace (r : RaceControl) : RaceControl := confirmList (unplaceRacing r)

/-- The state behind the deadline and its PLACING report, before the test for the end of the race. -/
def deadlineTold (s : State) : State :=
  queueEvent (placingReport .deadline s.race (unplacedRace s.race)) (s.withRace (unplacedRace s.race))

theorem takeDeadline_eq (s : State) : takeDeadline s = testRaceEnd (deadlineTold s) := rfl

theorem not_racing_unplacedRace (r : RaceControl) : ¬ ∃ k ∈ (unplacedRace r).cars, k.state = .racing := by
  simp only [unplacedRace, unplaceRacing, confirmList, List.mem_map]
  rintro ⟨_, ⟨k, -, rfl⟩, hracing⟩
  split at hracing
  · simp [unplacedCar] at hracing
  · next h => exact h hracing

theorem unplacedRace_eq (r : RaceControl) :
    unplacedRace r =
      { r with cars := r.cars.map fun k => if k.state = .racing then unplacedCar k else k,
               finish := r.finish.map fun e => { e with confirmed := true } } := by
  have hstamps : racingStamps (unplaceRacing r) = [] := racingStamps_eq_nil (not_racing_unplacedRace r)
  rw [unplacedRace, confirmList, hstamps, confirmFrom_nil]
  rfl

section
variable {s : State} (hphase : s.race.phase = .running ∨ s.race.phase = .closing)
include hphase

/-- The deadline always ends the race (R146, R147). -/
theorem takeDeadline_ends : takeDeadline s = raceEnded (deadlineTold s) := by
  have hrace : (deadlineTold s).race = unplacedRace s.race := by simp [deadlineTold]
  rw [takeDeadline_eq]
  exact testRaceEnd_ends (by rwa [hrace]) (by rw [hrace]; exact not_racing_unplacedRace _)

theorem takeDeadline_race :
    (takeDeadline s).race =
      { s.race with
        cars := s.race.cars.map fun k => if k.state = .racing then unplacedCar k else k,
        phase := .results, causes := { fault := false, command := false },
        finish := s.race.finish.map fun e => { e with confirmed := true } } := by
  have hrace : (deadlineTold s).race = unplacedRace s.race := by simp [deadlineTold]
  have hstamps : racingStamps (unplacedRace s.race) = [] := racingStamps_eq_nil (not_racing_unplacedRace _)
  rw [takeDeadline_ends hphase, raceEnded_race, hrace, hstamps, unplacedRace_eq, confirmFrom_nil]
  simp

theorem takeDeadline_time :
    (takeDeadline s).time = { s.time with raceStatus := .frozen .results, raceWait := 0 } := by
  rw [takeDeadline_ends hphase, raceEnded_time]
  simp [deadlineTold]

/-- The reports of the deadline: PLACING, and behind it the PHASE report of the race's end. -/
theorem takeDeadline_port :
    (takeDeadline s).port =
      (queueEvent (raceEndReport s.time.race)
        (queueEvent (placingReport .deadline s.race (takeDeadline s).race) s)).port := by
  have htime : (deadlineTold s).time = s.time := by simp [deadlineTold]
  have htold : (deadlineTold s).port =
      (queueEvent (placingReport .deadline s.race (takeDeadline s).race) s).port := by
    rw [placingReport_congr (y := unplacedRace s.race) .deadline rfl rfl
      (by rw [takeDeadline_race hphase, unplacedRace_eq]) (by rw [takeDeadline_race hphase, unplacedRace_eq])]
    exact queueEvent_port _ _ _ rfl
  rw [takeDeadline_ends hphase, raceEnded_port, htime, ← takeDeadline_ends hphase]
  exact queueEvent_port _ _ _ htold

end

/-- Race time that stands at a value or counts gets to it (R42, R145). -/
theorem raceRemaining_reaches {v : Nat} {t : Timebase} (hv : v ≤ 4294967295)
    (h : v ≤ t.race.toNat ∨ t.raceStatus = .counting) :
    ∃ d, raceRemaining v t = some d ∧ v ≤ (elapseTime d t).race.toNat := by
  have htop : ¬ topMicros < v := by rw [topMicros]; omega
  simp only [raceRemaining, if_neg htop, elapseTime_eq]
  by_cases hv' : v ≤ t.race.toNat
  · exact ⟨0, if_pos hv', hv'.trans (elapseRace_mono 0 t)⟩
  · have hcount := h.resolve_left hv'
    refine ⟨v - t.race.toNat, by rw [if_neg hv', if_pos hcount], ?_⟩
    rw [elapseRace_race, if_pos hcount]
    rw [topMicros] at htop ⊢
    omega

/-! ## A car retired (R92, R93) -/

section
variable (why : RetireReason) (c : Nat) (s : State)

/-- Behind a retirement the RACING cars are the others. -/
theorem racing_retiredBeforeEnd_iff :
    (∃ k ∈ (retiredBeforeEnd why c s).race.cars, k.state = .racing) ↔ ∃ b, b ≠ c ∧ (carAt s b).state = .racing :=
  exists_racing_set_iff (k := retiredCar why (carAt s c)) (by rw [retiredBeforeEnd_race]; rfl) (by simp [retiredCar])

theorem retireCar_stays (h : ∃ b, b ≠ c ∧ (carAt s b).state = .racing) :
    retireCar why c s = retiredBeforeEnd why c s := by
  rw [retireCar_eq]
  exact testRaceEnd_stays ((racing_retiredBeforeEnd_iff why c s).2 h)

theorem retireCar_ends (hphase : s.race.phase = .running ∨ s.race.phase = .closing)
    (h : ∀ b, b ≠ c → (carAt s b).state ≠ .racing) :
    retireCar why c s = raceEnded (retiredBeforeEnd why c s) := by
  rw [retireCar_eq]
  refine testRaceEnd_ends (by rwa [retiredBeforeEnd_race]) fun hracing => ?_
  obtain ⟨b, hb, hb'⟩ := (racing_retiredBeforeEnd_iff why c s).1 hracing
  exact h b hb hb'

theorem carAt_retireCar (h : (carAt s c).state = .racing) :
    carAt (retireCar why c s) c = { carAt s c with state := .retired, reason := some why, timer := none } :=
  carAt_of_set (retireCar_cars why c s) (lt_of_racing h)

theorem carAt_retireCar_ne {b : Nat} (hb : b ≠ c) : carAt (retireCar why c s) b = carAt s b :=
  carAt_of_set_ne (retireCar_cars why c s) hb

/-- A retirement leaves the setup, and of the finish list the cars in their order. -/
theorem retireCar_keeps :
    (retireCar why c s).race.setup = s.race.setup ∧
      (retireCar why c s).race.finish.map FinishEntry.car = s.race.finish.map FinishEntry.car := by
  have hcars (stamps : List Micros) (l : List FinishEntry) :
      (confirmFrom stamps l).map FinishEntry.car = l.map FinishEntry.car := confirmFrom_map _ (fun _ => rfl) _ _
  rw [retireCar_eq, testRaceEnd]
  split
  · simp [confirmList, setCar, hcars]
  · simp [confirmList, setCar, hcars]

end

/-- The time to the lost limit of a RACING car whose timer lies that far behind race time (R93). -/
theorem lostRemaining_reached {s : State} {c : Nat} {t0 : Micros} (hact : actingAnchor s = true)
    (hracing : (carAt s c).state = .racing) (htimer : (carAt s c).timer = some t0)
    (h : t0.toNat + setup s 4 * 100000 ≤ s.time.race.toNat) : ∃ d, lostRemaining s c = some d := by
  have hrace := s.time.race.isLt
  obtain ⟨d, hd, -⟩ := raceRemaining_reaches (t := s.time) (by omega) (.inl h)
  have hisRacing : isRacing s.race c = true := beq_iff_eq.2 hracing
  exact ⟨d, by rw [lostRemaining, if_pos ⟨hact, hisRacing⟩, htimer]; exact hd⟩

/-- Settles O28: the deadline leaves no car RACING, so that it ends the race; a retirement ends it when no other car is
RACING. -/
theorem deadlineAndLostCars : Obligations.DeadlineAndLostCars := by
  refine ⟨fun s dl hact hphase hdl hreach => ?deadline, fun s c t0 hact hracing htimer hlimit => ?lost,
    fun why c s hracing => ⟨carAt_retireCar why c s hracing, fun b hb => carAt_retireCar_ne why c s hb,
      retireCar_port why c s⟩⟩
  case deadline =>
    obtain ⟨d, hd, hdue⟩ := raceRemaining_reaches (by have := dl.isLt; omega) hreach
    let u := elapse d s
    have hremaining : deadlineRemaining s = some d := by
      rw [deadlineRemaining, if_pos ⟨hact, hphase⟩, hdl]
      exact hd
    have hexec : exec .closeDeadline s = .next (takeDeadline u) := by
      show Host.Outcome.next (atInstant (deadlineRemaining s) takeDeadline s) = _
      rw [hremaining]
      rfl
    have hrace := takeDeadline_race (s := u) hphase
    have htime := takeDeadline_time (s := u) hphase
    have hport : (takeDeadline u).port =
        (queueEvent (raceEndReport (takeDeadline u).time.race)
          (queueEvent (placingReport .deadline s.race (takeDeadline u).race) s)).port := by
      rw [takeDeadline_port (s := u) hphase, htime]
      exact queueEvent_port _ _ _ (queueEvent_port _ _ _ rfl)
    refine ⟨takeDeadline u, hexec, ?_, ?_, ?_, ?_, ?_, ?_, hport, ?_, ?_, ?_, ?_, ?_, ?_, ?_⟩
    · rw [hrace]; rfl
    · rw [hrace]
    · rw [hrace]
    · rw [htime]
    · rw [htime]; exact hdue
    · rw [hrace]; rfl
    · rw [hrace]; rfl
    · rw [hrace]; rfl
    · rw [hrace]; rfl
    all_goals simp [u]
  case lost =>
    obtain ⟨d, hremaining⟩ := lostRemaining_reached hact hracing htimer hlimit
    let u := elapse d s
    have hexec : exec (.lostCarLimit c) s = .next (retireCar .lost c u) := by
      show Host.Outcome.next (atInstant (lostRemaining s c) (retireCar .lost c) s) = _
      rw [hremaining]
      rfl
    have htold (after : RaceControl) : (queueEvent (placingReport .retirement u.race after) u).port =
        (queueEvent (placingReport .retirement s.race after) s).port := queueEvent_port _ _ _ rfl
    obtain ⟨hsetup, hfinish⟩ := retireCar_keeps .lost c u
    refine ⟨retireCar .lost c u, hexec, carAt_retireCar .lost c u hracing, fun b hb => carAt_retireCar_ne .lost c u hb,
      fun hothers => ?stays, fun hothers hphase => ?ends, hfinish, hsetup, ?_, ?_, ?_, ?_⟩
    case stays =>
      rw [retireCar_stays .lost c u hothers]
      refine ⟨by rw [retiredBeforeEnd_race]; rfl, by rw [retiredBeforeEnd_race]; rfl, ?_⟩
      rw [retiredBeforeEnd_port, htold]
    case ends =>
      have hends := retireCar_ends .lost c u hphase hothers
      have hresults : (retireCar .lost c u).race.phase = .results := by rw [hends, raceEnded_race]
      have hphase' : u.race.phase ≠ .results := by
        rcases hphase with h | h
        · exact fun hr => by cases h.symm.trans hr
        · exact fun hr => by cases h.symm.trans hr
      refine ⟨hresults, by rw [hends, raceEnded_time], ?_⟩
      rw [retireCar_port, retirementReports, if_pos ⟨hphase', hresults⟩]
      exact queueEvent_port _ _ _ (htold _)
    all_goals simp [u]

end Sys2Proof.Machine
end

section
/-! A returned car block: read for race purposes at the anchor, and taken by the replica store beside the summary
(chapters 07 and 09, R119 to R123, R139 to R145, R149). -/

namespace Sys2Proof.Machine

open Sys2Proof Sys2Proof.Safety

/-! ## The finish list (R143, R145) -/

/-- A finisher's place: behind every entry that stands before it, and before the first that does not (R143). -/
theorem insertFinish_split (e : FinishEntry) (l : List FinishEntry) :
    ∃ front back, l = front ++ back ∧ insertFinish e l = front ++ e :: back ∧
      (∀ f ∈ front, f.time.toNat < e.time.toNat ∨ (f.time.toNat = e.time.toNat ∧ f.car < e.car)) ∧
      ∀ f ∈ back.head?, e.time.toNat < f.time.toNat ∨ (f.time.toNat = e.time.toNat ∧ e.car ≤ f.car) := by
  induction l with
  | nil => exact ⟨[], [], rfl, rfl, by simp, by simp⟩
  | cons f rest ih =>
    by_cases h : f.time.toNat < e.time.toNat ∨ (f.time.toNat = e.time.toNat ∧ f.car < e.car)
    · obtain ⟨front, back, hl, hinsert, hfront, hback⟩ := ih
      exact ⟨f :: front, back, by simp [hl], by simp [insertFinish, if_pos h, hinsert], by simpa using ⟨h, hfront⟩, hback⟩
    · refine ⟨[], f :: rest, rfl, by simp [insertFinish, if_neg h], by simp, ?_⟩
      simp only [List.head?_cons, Option.mem_some_iff, forall_eq']
      omega

/-- The close deadline follows another head of the list (R145). -/
theorem recomputeDeadline_head {before : List FinishEntry} {r : RaceControl} {e : FinishEntry}
    (h : r.finish.head? = some e) :
    (recomputeDeadline before r).deadline =
      if before.head?.map FinishEntry.car = some e.car then r.deadline
      else some (BitVec.ofNat 32 (min 4294967295 (e.time.toNat + r.setup.getD 1 0 * 1000000))) := by
  obtain ⟨rest, hr⟩ : ∃ rest, r.finish = e :: rest := by
    cases hl : r.finish with
    | nil => simp [hl] at h
    | cons f rest => simp only [hl, List.head?_cons, Option.some.injEq] at h; exact ⟨rest, by rw [h]⟩
  simp only [recomputeDeadline, hr]
  split <;> rfl

/-- The deadline leaves a car that is not RACING. -/
theorem carAt_takeDeadline {s : State} {c : Nat} (h : (carAt s c).state ≠ .racing) :
    carAt (takeDeadline s) c = carAt s c := by
  have hcars : (takeDeadline s).race.cars = s.race.cars.map fun k => if k.state = .racing then unplacedCar k else k := by
    simp [takeDeadline]
  simp only [carAt, hcars, List.getD_eq_getElem?_getD, List.getElem?_map] at h ⊢
  cases hk : s.race.cars[c]? with
  | none => rfl
  | some k =>
    rw [hk] at h
    exact if_neg h

/-! ## A block that finishes its car (R142 to R146) -/

/-- Another car is RACING. -/
abbrev OthersRace (c : Nat) (s : State) : Prop := ∃ b, b ≠ c ∧ (carAt s b).state = .racing

section
variable {c : Nat} {d : CarData} {s : State}

/-- Behind a finishing block the RACING cars are the others. -/
theorem racing_closedRace_iff :
    (∃ k ∈ (closedRace c d s).cars, k.state = .racing) ↔ OthersRace c s :=
  exists_racing_set_iff (closedRace_cars c d s) (by simp [finishedCar])

theorem racingCount_closedRace_pos_iff :
    0 < racingCount (closedRace c d s) ↔ OthersRace c s := by
  rw [Nat.pos_iff_ne_zero, Ne, racingCount_eq_zero_iff, not_not, racing_closedRace_iff]

@[simp] theorem blockFinished_time : (blockFinished c d s).time = s.time := by
  simp only [blockFinished, queuePlacing_leaves, blockEntered]
  split <;> simp

/-- The race behind a finishing block, by its parts. -/
theorem closedRace_eq :
    closedRace c d s =
      { confirmList (finishedRace c d s) with
        phase := if s.race.phase = .running then .closing else s.race.phase,
        deadline := (recomputeDeadline s.race.finish (finishedRace c d s)).deadline } := by
  obtain ⟨dl, hdl⟩ := recomputeDeadline_eq s.race.finish (finishedRace c d s)
  rw [closedRace, hdl]
  rfl

theorem blockEntered_port :
    (blockEntered c d s).port =
      (if s.race.phase = .running then
        queueEvent (.phase .closing (anyCause s.race.causes) s.race.causes s.time.race .finish) s
      else s).port := by
  obtain ⟨dl, hdl⟩ := recomputeDeadline_eq s.race.finish (finishedRace c d s)
  rw [blockEntered, hdl]
  split
  · exact queueEvent_port _ _ _ rfl
  · rfl

theorem closedRace_finish : (closedRace c d s).finish = (confirmList (finishedRace c d s)).finish := by
  rw [closedRace_eq]

/-- The reports of a finishing block: PHASE of the first finisher, and behind it PLACING (R78, R149). -/
def finishTold (c : Nat) (d : CarData) (s : State) : State :=
  queueEvent (placingReport .finish s.race (confirmList (finishedRace c d s)))
    (if s.race.phase = .running then
      queueEvent (.phase .closing (anyCause s.race.causes) s.race.causes s.time.race .finish) s
    else s)

theorem blockFinished_port : (blockFinished c d s).port = (finishTold c d s).port := by
  have hrace : confirmList (blockEntered c d s).race = closedRace c d s := by
    simp only [← blockFinished_race, blockFinished, queuePlacing_leaves, State.withRace_race]
  have hplacing : placingReport .finish s.race (closedRace c d s) =
      placingReport .finish s.race (confirmList (finishedRace c d s)) :=
    placingReport_congr _ rfl rfl closedRace_finish (closedRace_cars c d s)
  rw [blockFinished, hrace, queuePlacing_eq]
  exact (congrArg (fun r => (queueEvent r _).port) hplacing).trans (queueEvent_port _ _ _ blockEntered_port)

variable (hphase : s.race.phase = .running ∨ s.race.phase = .closing)
include hphase

theorem closedRace_phase : (closedRace c d s).phase = .closing := by
  rcases hphase with h | h <;> simp [closedRace_eq, h]

theorem deadlineReached_blockFinished_iff :
    deadlineReached (blockFinished c d s) = true ↔
      ∃ dl, (closedRace c d s).deadline = some dl ∧ dl.toNat ≤ s.time.race.toNat := by
  simp only [deadlineReached, blockFinished_race, closedRace_phase hphase, blockFinished_time]
  cases (closedRace c d s).deadline <;> simp

/-- What a finishing block comes to: the race's end when no other car is RACING; else the deadline when it stands
reached; else the race goes on. -/
theorem finishCar_cases :
    (¬ OthersRace c s ∧ finishCar c d s = raceEnded (blockFinished c d s)) ∨
      (OthersRace c s ∧ deadlineReached (blockFinished c d s) = true ∧
        finishCar c d s = takeDeadline (blockFinished c d s)) ∨
      (OthersRace c s ∧ ¬ deadlineReached (blockFinished c d s) = true ∧ finishCar c d s = blockFinished c d s) := by
  have hdeadline : (deadlineReached (blockFinished c d s) &&
      decide (0 < racingCount (blockFinished c d s).race)) = true ↔
        deadlineReached (blockFinished c d s) = true ∧ OthersRace c s := by
    rw [Bool.and_eq_true, decide_eq_true_eq, blockFinished_race, racingCount_closedRace_pos_iff]
  rw [finishCar_eq]
  by_cases hothers : OthersRace c s
  · by_cases hreached : deadlineReached (blockFinished c d s) = true
    · exact .inr (.inl ⟨hothers, hreached, if_pos (hdeadline.2 ⟨hreached, hothers⟩)⟩)
    · have hracing : ∃ k ∈ (blockFinished c d s).race.cars, k.state = .racing := by
        rwa [blockFinished_race, racing_closedRace_iff]
      refine .inr (.inr ⟨hothers, hreached, ?_⟩)
      rw [if_neg fun h => hreached (hdeadline.1 h).1, testRaceEnd_stays hracing]
  · refine .inl ⟨hothers, ?_⟩
    rw [if_neg fun h => hothers (hdeadline.1 h).2]
    refine testRaceEnd_ends (.inr ?_) ?_
    · rw [blockFinished_race, closedRace_phase hphase]
    · rwa [blockFinished_race, racing_closedRace_iff]

/-- A finished car stays as its block made it, whatever the block comes to. -/
theorem carAt_finishCar (hc : c < s.race.cars.length) :
    carAt (finishCar c d s) c = finishedCar s.time.race d (carAt s c) := by
  have hblock : carAt (blockFinished c d s) c = finishedCar s.time.race d (carAt s c) :=
    carAt_of_set (by rw [blockFinished_race, closedRace_cars]) hc
  obtain ⟨-, h⟩ | ⟨-, -, h⟩ | ⟨-, -, h⟩ := finishCar_cases (c := c) (d := d) hphase
  · rw [h, carAt, raceEnded_race, ← hblock]
    rfl
  · rw [h, carAt_takeDeadline (by rw [hblock]; simp [finishedCar]), hblock]
  · rw [h, hblock]

/-- Of the finish list the race's end and the deadline change the confirmed flags alone. -/
theorem finishCar_finish :
    (finishCar c d s).race.finish.map (fun e => (e.car, e.time)) =
      (insertFinish (finishEntry c d s) s.race.finish).map fun e => (e.car, e.time) := by
  have hconfirm (stamps : List Micros) (l : List FinishEntry) :
      (confirmFrom stamps l).map (fun e => (e.car, e.time)) = l.map fun e => (e.car, e.time) :=
    confirmFrom_map _ (fun _ => rfl) _ _
  have hblock : (blockFinished c d s).race.finish.map (fun e => (e.car, e.time)) =
      (insertFinish (finishEntry c d s) s.race.finish).map fun e => (e.car, e.time) := by
    rw [blockFinished_race, closedRace_eq]
    exact hconfirm _ _
  have hclosing : (blockFinished c d s).race.phase = .closing := by rw [blockFinished_race, closedRace_phase hphase]
  obtain ⟨-, h⟩ | ⟨-, -, h⟩ | ⟨-, -, h⟩ := finishCar_cases (c := c) (d := d) hphase
  · rw [h, raceEnded_race]
    exact (hconfirm _ _).trans hblock
  · rw [h, takeDeadline_race (.inr hclosing), ← hblock]
    simp
  · rw [h, hblock]

/-- Behind a finishing block the deadline is that of the head of the list (R145). -/
theorem finishCar_deadline : (finishCar c d s).race.deadline = (closedRace c d s).deadline := by
  have hclosing : (blockFinished c d s).race.phase = .closing := by rw [blockFinished_race, closedRace_phase hphase]
  obtain ⟨-, h⟩ | ⟨-, -, h⟩ | ⟨-, -, h⟩ := finishCar_cases (c := c) (d := d) hphase
  · rw [h, raceEnded_race, blockFinished_race]
  · rw [h, takeDeadline_race (.inr hclosing), blockFinished_race]
  · rw [h, blockFinished_race]

theorem finishCar_deadline_head {e : FinishEntry} (h : (finishCar c d s).race.finish.head? = some e) :
    (finishCar c d s).race.deadline =
      if s.race.finish.head?.map FinishEntry.car = some e.car then s.race.deadline
      else some (BitVec.ofNat 32 (min 4294967295 (e.time.toNat + setup s 1 * 1000000))) := by
  have hhead := congrArg List.head? (finishCar_finish (c := c) (d := d) hphase)
  rw [List.head?_map, List.head?_map, h] at hhead
  cases hinsert : (insertFinish (finishEntry c d s) s.race.finish).head? with
  | none => simp [hinsert] at hhead
  | some f =>
    have hf : e.car = f.car ∧ e.time = f.time := by simpa [hinsert] using hhead
    rw [finishCar_deadline hphase, closedRace_eq, hf.1, hf.2]
    exact recomputeDeadline_head (r := finishedRace c d s) hinsert

/-- A block that finishes the last RACING car ends the race (R147). -/
theorem finishCar_last (h : ¬ OthersRace c s) :
    (finishCar c d s).race.phase = .results ∧
      (finishCar c d s).port = (queueEvent (raceEndReport s.time.race) (finishTold c d s)).port := by
  obtain ⟨-, hend⟩ | ⟨ho, -, -⟩ | ⟨ho, -, -⟩ := finishCar_cases (c := c) (d := d) hphase
  · refine ⟨by rw [hend, raceEnded_race], ?_⟩
    rw [hend, raceEnded_port, blockFinished_time]
    exact queueEvent_port _ _ _ blockFinished_port
  · exact absurd ho h
  · exact absurd ho h

/-- With other cars RACING a finishing block ends the race when the deadline then stands reached (R145, R146). -/
theorem finishCar_among (h : OthersRace c s) :
    ((finishCar c d s).race.phase = .results ↔
        ∃ dl, (finishCar c d s).race.deadline = some dl ∧ dl.toNat ≤ s.time.race.toNat) ∧
      ((finishCar c d s).race.phase = .closing →
        (finishCar c d s).race.finish = (confirmList (finishedRace c d s)).finish ∧
          (finishCar c d s).race.cars = (confirmList (finishedRace c d s)).cars ∧
          (finishCar c d s).port = (finishTold c d s).port) ∧
      ((finishCar c d s).race.phase = .results →
        (finishCar c d s).port =
          (queueEvent (raceEndReport s.time.race)
            (queueEvent (placingReport .deadline (confirmList (finishedRace c d s)) (finishCar c d s).race)
              (finishTold c d s))).port) := by
  have hclosing : (blockFinished c d s).race.phase = .closing := by rw [blockFinished_race, closedRace_phase hphase]
  have hreached := deadlineReached_blockFinished_iff (c := c) (d := d) hphase
  rw [← finishCar_deadline hphase] at hreached
  obtain ⟨ho, -⟩ | ⟨-, hr, hend⟩ | ⟨-, hr, hend⟩ := finishCar_cases (c := c) (d := d) hphase
  · exact absurd h ho
  · have hresults : (finishCar c d s).race.phase = .results := by rw [hend, takeDeadline_race (.inr hclosing)]
    refine ⟨iff_of_true hresults (hreached.1 hr), fun hc => by simp [hresults] at hc, fun _ => ?_⟩
    rw [hend, takeDeadline_port (.inr hclosing), blockFinished_time, ← hend]
    refine queueEvent_port _ _ _ ?_
    rw [placingReport_congr (b := confirmList (finishedRace c d s)) .deadline
      (by rw [blockFinished_race, closedRace_finish]) (by rw [blockFinished_race, closedRace_cars]; rfl) rfl rfl]
    exact queueEvent_port _ _ _ blockFinished_port
  · have hstill : (finishCar c d s).race.phase = .closing := by rw [hend, hclosing]
    refine ⟨iff_of_false (by simp [hstill]) fun hd => hr (hreached.2 hd), fun _ => ⟨?_, ?_, ?_⟩,
      fun hc => by simp [hstill] at hc⟩
    · rw [hend, blockFinished_race, closedRace_finish]
    · rw [hend, blockFinished_race, closedRace_cars]; rfl
    · rw [hend, blockFinished_port]

theorem finishCar_phase :
    (finishCar c d s).race.phase = .closing ∨ (finishCar c d s).race.phase = .results := by
  have hclosing : (blockFinished c d s).race.phase = .closing := by rw [blockFinished_race, closedRace_phase hphase]
  obtain ⟨-, h⟩ | ⟨-, -, h⟩ | ⟨-, -, h⟩ := finishCar_cases (c := c) (d := d) hphase
  · exact .inr (by rw [h, raceEnded_race])
  · exact .inr (by rw [h, takeDeadline_race (.inr hclosing)])
  · exact .inl (by rw [h, hclosing])

end

/-! ## A returned block (R139 to R141) -/

/-- A block is read for race purposes: it is valid and names the car, which is RACING, and its owner (R139). -/
abbrev ReadsFor (c : Nat) (b : CarBlock) (s : State) : Prop :=
  b.valid = true ∧ b.car = c ∧ b.station < 15 ∧ (carAt s c).state = .racing ∧
    (carAt s c).owner = some { station := b.station, seat := b.seat }

/-- The race behind a block short of the lap total: the car of R140 stands, and the list is confirmed anew (R144). -/
def runRace (c : Nat) (d : CarData) (s : State) : RaceControl :=
  confirmList (setCar c (carAfterBlock s.time.race d (carAt s c)) s.race)

/-- A block is taken when it is read and its stamp is later than the last accepted one (R139, R140). -/
theorem readsLater_iff {c : Nat} {b : CarBlock} {s : State} :
    (readForRace (carAt s c) c b && decide ((carAt s c).stamp.toNat < b.data.raceStamp.toNat)) = true ↔
      ReadsFor c b s ∧ (carAt s c).stamp.toNat < b.data.raceStamp.toNat := by
  simp [readForRace, and_assoc]

section
variable {c : Nat} {syms : List RxSym} {s : State}

theorem readBlock_none (h : parseBlock syms = none) : readBlock c syms s = s := by simp only [readBlock, h]

variable {b : CarBlock} (hb : parseBlock syms = some b)
include hb

theorem readBlock_ignored (h : ¬ ReadsFor c b s ∨ b.data.raceStamp.toNat ≤ (carAt s c).stamp.toNat) :
    readBlock c syms s = s := by
  simp only [readBlock, hb]
  refine if_neg fun htaken => ?_
  obtain ⟨hread, hlater⟩ := readsLater_iff.1 htaken
  exact h.elim (fun hno => hno hread) (fun hle => absurd hlater hle.not_gt)

variable (hread : ReadsFor c b s) (hlater : (carAt s c).stamp.toNat < b.data.raceStamp.toNat)
include hread hlater

theorem readBlock_finishes (hlaps : setup s 0 ≤ max b.data.laps (carAt s c).laps) :
    readBlock c syms s = finishCar c b.data s := by
  simp only [readBlock, hb, if_pos (readsLater_iff.2 ⟨hread, hlater⟩), if_pos hlaps]

/-- A block short of the lap total, with the PLACING report of the entries that it confirms (R140, R144, R149). -/
theorem readBlock_runs (hlaps : ¬ setup s 0 ≤ max b.data.laps (carAt s c).laps) :
    readBlock c syms s =
      if (runRace c b.data s).finish = s.race.finish then s.withRace (runRace c b.data s)
      else queueEvent (placingReport .confirm s.race (runRace c b.data s)) (s.withRace (runRace c b.data s)) := by
  simp only [readBlock, hb, if_pos (readsLater_iff.2 ⟨hread, hlater⟩), if_neg hlaps, queuePlacing_eq]
  rfl

theorem readBlock_runs_race (hlaps : ¬ setup s 0 ≤ max b.data.laps (carAt s c).laps) :
    (readBlock c syms s).race = runRace c b.data s := by
  rw [readBlock_runs hb hread hlater hlaps]
  split <;> simp

theorem readBlock_runs_time (hlaps : ¬ setup s 0 ≤ max b.data.laps (carAt s c).laps) :
    (readBlock c syms s).time = s.time := by
  rw [readBlock_runs hb hread hlater hlaps]
  split <;> simp

theorem readBlock_runs_port (hlaps : ¬ setup s 0 ≤ max b.data.laps (carAt s c).laps) :
    (readBlock c syms s).port =
      (if (runRace c b.data s).finish = s.race.finish then s
       else queueEvent (placingReport .confirm s.race (runRace c b.data s)) s).port := by
  rw [readBlock_runs hb hread hlater hlaps]
  split
  · rfl
  · exact queueEvent_port _ _ _ rfl

end

/-! ## The replica store (R119 to R123) -/

/-- The entry belongs to another station or seat than the summary shows (R119). -/
abbrev OwnedByOther (l : List CarSummary) (c : Nat) (s : State) : Prop :=
  (entryAt s c).fresh ≠ .none ∧
    (entryAt s c).owner ≠ some { station := (summaryAt l c).station, seat := (summaryAt l c).seat }

section
variable {l : List CarSummary} {c : Nat} {s : State}

/-- A VACANT car, an own car and a new owner clear the entry. -/
theorem summarySetEntry_clears
    (h : (summaryAt l c).state = .vacant ∨ (summaryAt l c).station = address s ∨ OwnedByOther l c s) :
    summarySetEntry l c s = clearEntry c s := by
  unfold summarySetEntry
  dsimp only
  split_ifs with hvacant hown hother
  · rfl
  · rfl
  · rfl
  all_goals exact absurd h (by simp only [not_or]; exact ⟨hvacant, hown, hother⟩)

variable (hvacant : (summaryAt l c).state ≠ .vacant) (hown : (summaryAt l c).station ≠ address s)
  (hother : ¬ OwnedByOther l c s)
include hvacant hown hother

theorem summarySetEntry_over (h : (summaryAt l c).state = .retired ∨ (summaryAt l c).state = .unplaced) :
    summarySetEntry l c s =
      if (entryAt s c).fresh = .none then s
      else s.withReplica (s.replica.set c { entryAt s c with fresh := .gone }) := by
  simp only [summarySetEntry, if_neg hvacant, if_neg hown, if_neg hother, if_pos h]

theorem summarySetEntry_runs (h : ¬ ((summaryAt l c).state = .retired ∨ (summaryAt l c).state = .unplaced)) :
    summarySetEntry l c s = if (entryAt s c).fresh = .gone then clearEntry c s else s := by
  simp only [summarySetEntry, if_neg hvacant, if_neg hown, if_neg hother, if_neg h]

end

/-- A fresh mapping sets the release mark of every entry in use (R121). -/
theorem entryAt_setReleaseMarks {s : State} {c : Nat} (h : c < s.replica.length) :
    entryAt (setReleaseMarks s) c =
      if (entryAt s c).fresh = .none then entryAt s c else { entryAt s c with release := true } := by
  simp [entryAt, setReleaseMarks, List.getD_eq_getElem?_getD, h]

/-- A block is taken by the replica store: another station's car in the race, its number and owner, and a later
stamp, a release mark or no block before it (R120, R121). -/
abbrev TakesBlock (l : List CarSummary) (c : Nat) (b : CarBlock) (s : State) : Prop :=
  b.valid = true ∧ b.car = c ∧ b.station < 15 ∧ (summaryAt l c).station ≠ address s ∧
    ((summaryAt l c).state = .entered ∨ (summaryAt l c).state = .racing ∨ (summaryAt l c).state = .finished) ∧
    b.station = (summaryAt l c).station ∧ b.seat = (summaryAt l c).seat ∧
    ∀ d, (entryAt s c).data = some d →
      (entryAt s c).release = true ∨ 0 < signedDiff b.data.linkStamp d.linkStamp

/-- The entry behind a block taken (R120). -/
def blockEntry (b : CarBlock) (e : ReplicaEntry) : ReplicaEntry :=
  { fresh := if e.fresh = .none then .fresh else e.fresh,
    owner := some { station := b.station, seat := b.seat }, data := some b.data, release := false, pres := e.pres }

section
variable {l : List CarSummary} {c : Nat} {syms : List RxSym} {s : State}

theorem takeBlock_none (h : parseBlock syms = none) : takeBlock l c syms s = s := by simp only [takeBlock, h]

/-- A block that the store takes, with an APPEARANCE report when the entry is new or its appearance changes (R123). -/
theorem takeBlock_eq {b : CarBlock} (hb : parseBlock syms = some b) :
    takeBlock l c syms s =
      let stored := s.withReplica (s.replica.set c (blockEntry b (entryAt s c)))
      if TakesBlock l c b s then
        if (entryAt s c).fresh = .none ∨ (entryAt s c).data.map (·.appearance) ≠ some b.data.appearance then
          queueEvent (.appearance c { station := b.station, seat := b.seat } b.data.appearance) stored
        else stored
      else s := by
  simp only [takeBlock, hb]
  refine if_congr ?_ rfl rfl
  cases hdata : (entryAt s c).data with
  | none => simp [TakesBlock, hdata]
  | some d => simp [TakesBlock, hdata]

end

/-! ## Returned blocks and the store -/

/-- The race with a car that a block finishes as O50 writes it: the car as it stands behind the whole event. -/
theorem finishedRace_eq {c : Nat} {d : CarData} {s : State} {k : Car}
    (hk : k = finishedCar s.time.race d (carAt s c)) :
    confirmList { s.race with cars := s.race.cars.set c k,
                              finish := insertFinish (finishEntry c d s) s.race.finish } =
      confirmList (finishedRace c d s) := by
  rw [hk]
  rfl

/-- Settles O50: a finishing block is followed through the outcomes of `finishCar_cases`, and the store through the
rows of R119 and R120. -/
theorem returnedBlockIsRead : Obligations.ReturnedBlockIsRead := by
  refine ⟨fun c syms s hlen hc => ⟨readBlock_none, fun b hb => ⟨readBlock_ignored hb, fun hread hlater hlaps => ?runs,
      fun hread hlater hlaps hphase => ?finishes⟩⟩,
    fun l c s _ _ => ⟨summarySetEntry_clears, fun hvacant hown hother =>
      ⟨fun hgone => ?gone, fun hretired hunplaced => ?inRace⟩⟩,
    fun s c hc => entryAt_setReleaseMarks hc,
    fun l c syms s _ _ => ⟨takeBlock_none, fun b hb => ⟨fun hno => ?untaken, fun htaken hnew => ?appears,
      fun htaken hold hsame => ?stored⟩⟩⟩
  case runs =>
    have hrun := not_le.2 hlaps
    have hrace := readBlock_runs_race hb hread hlater hrun
    have hcars : (readBlock c syms s).race.cars =
        s.race.cars.set c (carAfterBlock s.time.race b.data (carAt s c)) := by rw [hrace]; rfl
    refine ⟨carAt_of_set hcars (hlen.symm ▸ hc), fun a ha => carAt_of_set_ne hcars ha, by rw [hrace]; rfl,
      readBlock_runs_time hb hread hlater hrun, by rw [hrace]; exact confirmFrom_map _ (fun _ => rfl) _ _, ?_⟩
    rw [hrace]
    exact readBlock_runs_port hb hread hlater hrun
  case finishes =>
    have hcar := carAt_finishCar (d := b.data) hphase (hlen.symm ▸ hc : c < s.race.cars.length)
    have hmid := finishedRace_eq hcar
    obtain ⟨front, back, hlist, hinsert, hfront, hback⟩ :=
      insertFinish_split (finishEntry c b.data s) s.race.finish
    rw [readBlock_finishes hb hread hlater hlaps]
    refine ⟨by rw [hcar]; rfl, by rw [hcar]; rfl, by rw [hcar]; rfl, by rw [hcar]; rfl, by rw [hcar]; rfl,
      finishCar_phase hphase, ⟨front.map fun e => (e.car, e.time), back.map fun e => (e.car, e.time), ?_, ?_, ?_, ?_⟩, ?_⟩
    · rw [hlist, List.map_append]
    · rw [finishCar_finish hphase, hinsert, List.map_append, List.map_cons]
      rfl
    · intro e he
      obtain ⟨f, hf, rfl⟩ := List.mem_map.1 he
      exact hfront f hf
    · intro e he
      rw [List.head?_map] at he
      obtain ⟨f, hf, rfl⟩ := Option.map_eq_some_iff.1 he
      exact hback f hf
    · intro v others mid begun finished
      have hmid' : mid = confirmList (finishedRace c b.data s) := hmid
      have hfinished : finished = finishTold c b.data s := by
        show queueEvent (placingReport .finish s.race mid) begun = _
        rw [hmid']
        rfl
      refine ⟨fun e he => finishCar_deadline_head hphase he, fun ho => ?_, fun ho => ?_⟩
      · rw [hfinished]
        exact finishCar_last hphase ho
      · rw [hmid', hfinished]
        exact finishCar_among hphase ho
  case gone =>
    have hset := summarySetEntry_over hvacant hown hother hgone
    exact ⟨fun h => hset.trans (if_pos h), fun h => hset.trans (if_neg h)⟩
  case inRace =>
    have hset := summarySetEntry_runs hvacant hown hother (not_or.2 ⟨hretired, hunplaced⟩)
    exact ⟨fun h => hset.trans (if_pos h), fun h => hset.trans (if_neg h)⟩
  case untaken => exact (takeBlock_eq hb).trans (if_neg hno)
  case appears => exact (takeBlock_eq hb).trans ((if_pos htaken).trans (if_pos hnew))
  case stored =>
    exact (takeBlock_eq hb).trans ((if_pos htaken).trans (if_neg (not_or.2 ⟨hold, not_not.2 hsame⟩)))

end Sys2Proof.Machine
end

section
/-! The seat unit's commands: Set Ready, Request and Withdraw Attention, and Car Report (chapters 06 and 07, R107, R109,
R113 to R115). -/

namespace Sys2Proof.Machine

open Sys2Proof Sys2Proof.Safety

/-! ## A command with one test of its own -/

/-- At a configured station a command of the right length is judged by its tests behind the first two (R163, R169). -/
theorem firstRefusal_baseTests_append {s : State} (hc : configured s = true) (l : List (Bool × RefusalReason)) :
    firstRefusal (baseTests true s ++ l) = firstRefusal l := by
  simp [baseTests, hc]

section
variable {s : State} {p : Prop} [Decidable p] {why : RefusalReason}

/-- The one test of its own passes. -/
theorem firstRefusal_baseTests_holds (hc : configured s = true) (h : p) :
    firstRefusal (baseTests true s ++ [(decide p, why)]) = none := by
  simp [firstRefusal_baseTests_append hc, h]

/-- The one test of its own fails. -/
theorem firstRefusal_baseTests_fails (hc : configured s = true) (h : ¬ p) :
    firstRefusal (baseTests true s ++ [(decide p, why)]) = some why := by
  simp [firstRefusal_baseTests_append hc, h]

end

/-- A command that passes its tests and answers DONE is acted on behind its frame's leaving (R163). -/
theorem takeCommand_done (c : Cmd) {tests : State → List (Bool × RefusalReason)} (act : State → State) {s : State}
    (htake : canTake s = true) (hpass : firstRefusal (tests (dropFrame s)) = none) :
    takeCommand c (fun s => tested (tests s) (fun s => done (act s)) s) s =
      giveReply (.command c) (.done .none) (act (dropFrame s)) :=
  takeCommand_passed c (fun _ s => done (act s)) s htake hpass

/-! ## Set Ready and the attention request (R107, R109) -/

section
variable {s : State}

theorem exec_setReady {v : Nat} (hready : CommandReady s) (hv : v ≤ 1) :
    exec (.setReady true v) s =
      .next (giveReply (.command .setReady) (.done .none)
        ((dropFrame s).withSeat { s.seat with ready := v == 1 })) :=
  congrArg Host.Outcome.next (takeCommand_done .setReady (fun s => s.withSeat { s.seat with ready := v == 1 })
    hready.1 (firstRefusal_baseTests_holds (s := dropFrame s) hready.2 hv))

theorem exec_requestAttention {code : Nat} (hready : CommandReady s) (hcode : code ≤ 127) :
    exec (.requestAttention true code) s =
      .next (giveReply (.command .requestAttention) (.done .none)
        ((dropFrame s).withSeat { s.seat with attentionPending := true, attentionCode := code })) :=
  congrArg Host.Outcome.next (takeCommand_done .requestAttention
    (fun s => s.withSeat { s.seat with attentionPending := true, attentionCode := code })
    hready.1 (firstRefusal_baseTests_holds (s := dropFrame s) hready.2 hcode))

/-- Withdraw Attention has no test of its own. -/
theorem exec_withdrawAttention (hready : CommandReady s) :
    exec (.withdrawAttention true) s =
      .next (giveReply (.command .withdrawAttention) (.done .none)
        ((dropFrame s).withSeat { s.seat with attentionPending := false })) :=
  congrArg Host.Outcome.next (takeCommand_done .withdrawAttention
    (fun s => s.withSeat { s.seat with attentionPending := false })
    hready.1 (firstRefusal_baseTests_append (s := dropFrame s) hready.2 []))

/-! ## Car Report (R113 to R115) -/

theorem exec_carReport {seat : Nat} (a : CarReportArgs) (hready : CommandReady s) (hseat : seat < seatCount s) :
    exec (.carReport true seat a) s =
      .next (giveReply (.command .carReport) (.done .none)
        ((dropFrame s).withSeat { s.seat with own := s.seat.own.set seat (some (reportRecord a s.time)) })) :=
  congrArg Host.Outcome.next (takeCommand_done .carReport
    (fun s => s.withSeat { s.seat with own := s.seat.own.set seat (some (reportRecord a s.time)) })
    hready.1 (firstRefusal_baseTests_holds (s := dropFrame s) hready.2 hseat))

end

/-- A Car Report under the field latch carries the latched times (R115). -/
theorem reportStamps_latched {t : Timebase} {stamps : Micros × Micros} (h : t.latch = some stamps) :
    reportStamps t = stamps := by simp [reportStamps, h]

/-- A Car Report without the field latch carries both times at its taking (R115). -/
theorem reportStamps_unlatched {t : Timebase} (h : t.latch = none) : reportStamps t = (t.link, t.race) := by
  simp [reportStamps, h]

/-- Settles O46: each command by its one test, and the record's stamps by whether the field latch is set. -/
theorem seatUnitCommands : Obligations.SeatUnitCommands := by
  intro s hready
  have ⟨htake, hc⟩ := hready
  refine ⟨fun v hv => exec_setReady hready hv, fun v hv => ?readyMalformed,
    fun code hcode => exec_requestAttention hready hcode, fun code hcode => ?codeMalformed,
    exec_withdrawAttention hready, fun seat a hseat => ?report, fun seat a hseat => ?noSeat⟩
  case readyMalformed =>
    exact refused_of_portTests rfl htake (firstRefusal_baseTests_fails (s := dropFrame s) hc hv.not_ge)
  case codeMalformed =>
    exact refused_of_portTests rfl htake (firstRefusal_baseTests_fails (s := dropFrame s) hc hcode.not_ge)
  case noSeat =>
    exact refused_of_portTests rfl htake (firstRefusal_baseTests_fails (s := dropFrame s) hc hseat.not_gt)
  case report =>
    refine ⟨reportRecord a s.time, exec_carReport a hready hseat, rfl, rfl, rfl, rfl, rfl, rfl, rfl, rfl, rfl, rfl, rfl,
      fun f g hlatch => ?latched, fun hlatch => ?unlatched⟩
    case latched =>
      have hstamps := reportStamps_latched hlatch
      exact ⟨congrArg Prod.fst hstamps, congrArg Prod.snd hstamps⟩
    case unlatched =>
      have hstamps := reportStamps_unlatched hlatch
      exact ⟨congrArg Prod.fst hstamps, congrArg Prod.snd hstamps⟩

end Sys2Proof.Machine
end

section
/-! The arithmetic of the presentation unit: rounding, saturation and the interval of an extrapolation, and the
correction, snap and decay of the residuals (chapter 08, R128 to R133). -/

namespace Sys2Proof.Machine

open Sys2Proof Sys2Proof.Safety

/-! ## Rounding, saturation, wrap and interval (R128 to R130) -/

/-- The saturation of a position with its two ends in the other order (R113). -/
theorem saturatePosition_eq (v : Int) : saturatePosition v = max (-8388608) (min 8388607 v) := by
  unfold saturatePosition saturate
  omega

theorem saturatePosition_mem (v : Int) : -8388608 ≤ saturatePosition v ∧ saturatePosition v ≤ 8388607 :=
  saturate_mem _ _ v (by decide)

/-- The rounded quotient by a million is the nearest integer, and of two equally near the one farther from 0
(R129). -/
theorem roundAway_nearest (n : Int) :
    2 * |n - roundAway n 1000000 * 1000000| ≤ 1000000 ∧
      (2 * |n - roundAway n 1000000 * 1000000| = 1000000 → |n| < |roundAway n 1000000 * 1000000|) := by
  simp only [Int.abs_eq_natAbs]
  rcases lt_or_ge n 0 with hneg | hpos
  · rw [roundAway, if_pos hneg]; omega
  · rw [roundAway, if_neg hpos.not_gt]; omega

/-- A heading turned by a number wraps modulo 65,536 (R130, R133). -/
theorem toNat_add_ofInt (h : Half) (d : Int) : ((h + BitVec.ofInt 16 d).toNat : Int) = (h.toNat + d) % 65536 := by
  rw [BitVec.toNat_add, BitVec.toNat_ofInt]
  omega

/-- The interval is the difference of the stamps held between 0 and the horizon (R128). -/
theorem interval_eq (tp stamp : Micros) (horizon : Nat) :
    ((interval tp stamp horizon).1 : Int) = max 0 (min (horizon : Int) (signedDiff tp stamp)) := by
  unfold interval
  dsimp only
  split_ifs <;> dsimp only <;> omega

/-- Settles O51: the rounded displacement is the nearest integer, and one interval serves the three axes and the
heading. -/
theorem extrapolationRoundsAndSaturates : Obligations.ExtrapolationRoundsAndSaturates :=
  ⟨fun _ v dt => ⟨roundAway (v * dt) 1000000, saturatePosition_eq _, roundAway_nearest (v * dt)⟩,
    fun h w dt => ⟨roundAway (w * dt) 1000000, toNat_add_ofInt h _, roundAway_nearest (w * dt)⟩,
    fun tp horizon r => ⟨(interval tp r.linkStamp horizon).1, interval_eq tp r.linkStamp horizon, rfl⟩⟩

/-! ## Correction (R131) -/

theorem Residuals.fields_of_eq {a b : Residuals} (h : a = b) : a.x = b.x ∧ a.y = b.y ∧ a.z = b.z ∧ a.h = b.h := by
  subst h
  exact ⟨rfl, rfl, rfl, rfl⟩

/-- The values in which two reports agree (R131). -/
theorem sameReport_iff (a b : CarData) :
    sameReport a b = true ↔
      a.linkStamp = b.linkStamp ∧ a.x = b.x ∧ a.y = b.y ∧ a.z = b.z ∧ a.vx = b.vx ∧ a.vy = b.vy ∧
        a.vz = b.vz ∧ a.heading = b.heading ∧ a.yaw = b.yaw := by
  simp [sameReport, and_assoc]

section
variable {tp : Micros} {horizon : Nat} {p : Presentation} {d : CarData}

/-- A report that agrees with the one last used keeps the residuals (R131). -/
theorem corrected_same (h : sameReport d p.used = true) :
    corrected tp horizon (some p) d = { x := p.rx, y := p.ry, z := p.rz, h := p.rh } :=
  if_pos h

/-- Another report corrects each by what the value of the report last used exceeds its own (R131). -/
theorem corrected_new (h : ¬ sameReport d p.used = true) :
    corrected tp horizon (some p) d =
      { x := p.rx + ((poseAt tp horizon p.used).x - (poseAt tp horizon d).x),
        y := p.ry + ((poseAt tp horizon p.used).y - (poseAt tp horizon d).y),
        z := p.rz + ((poseAt tp horizon p.used).z - (poseAt tp horizon d).z),
        h := p.rh + ((poseAt tp horizon p.used).h - (poseAt tp horizon d).h).toInt } :=
  if_neg h

end

/-! ## Decay (R133) -/

/-- Decay acts on the magnitude. -/
theorem natAbs_decayOne {k : Nat} (r : Int) (h : k ≤ 16) : (decayOne k r).natAbs = r.natAbs * (16 - k) / 16 := by
  have hfactor : (16 - (k : Int)).natAbs = 16 - k := by omega
  rw [decayOne, Int.natAbs_tdiv, Int.natAbs_mul, hfactor]
  rfl

/-- Decay keeps the sign, the quotient being truncated toward 0. -/
theorem decayOne_eq {k : Nat} (r : Int) (h : k ≤ 16) :
    decayOne k r = r.sign * ((r.natAbs * (16 - k) / 16 : Nat) : Int) := by
  have hfactor : 16 - (k : Int) = ((16 - k : Nat) : Int) := by omega
  calc decayOne k r = (r.sign * r.natAbs * (16 - k : Nat)).tdiv 16 := by rw [decayOne, hfactor, Int.sign_mul_natAbs]
    _ = r.sign * (r.natAbs * (16 - k : Nat) : Int).tdiv 16 := by
        rcases lt_trichotomy r 0 with hneg | rfl | hpos
        · simp [Int.sign_eq_neg_one_of_neg hneg, Int.neg_tdiv]
        · simp
        · simp [Int.sign_eq_one_of_pos hpos]
    _ = r.sign * ((r.natAbs * (16 - k) / 16 : Nat) : Int) := by
        rw [Int.tdiv_eq_ediv_of_nonneg (by positivity)]; norm_cast

@[simp] theorem decayOne_zero (k : Nat) : decayOne k 0 = 0 := by simp [decayOne]

/-- A decay of 16 leaves nothing. -/
theorem decayOne_full (r : Int) : decayOne 16 r = 0 := by simp [decayOne]

theorem natAbs_decayOne_le {k : Nat} (r : Int) (h : k ≤ 16) : (decayOne k r).natAbs ≤ r.natAbs := by
  rw [natAbs_decayOne r h]
  exact Nat.div_le_of_le_mul (by rw [mul_comm]; gcongr; omega)

theorem natAbs_decayOne_lt {k : Nat} {r : Int} (hk : 1 ≤ k) (h : k ≤ 16) (hr : r ≠ 0) :
    (decayOne k r).natAbs < r.natAbs := by
  rw [natAbs_decayOne r h]
  refine Nat.div_lt_of_lt_mul ?_
  rw [mul_comm]
  exact Nat.mul_lt_mul_of_pos_right (by omega) (Int.natAbs_pos.2 hr)

/-- Decay upon decay a residual reaches 0, by its magnitude. -/
theorem decayOne_reaches_zero {k : Nat} (r : Int) (hk : 1 ≤ k) (h : k ≤ 16) : ∃ n, (decayOne k)^[n] r = 0 := by
  induction hm : r.natAbs using Nat.strong_induction_on generalizing r with
  | _ m ih =>
    by_cases hr : r = 0
    · exact ⟨0, hr⟩
    · have ⟨n, hn⟩ := ih _ (hm ▸ natAbs_decayOne_lt hk h hr) (decayOne k r) rfl
      exact ⟨n + 1, hn⟩

/-! ## The snap test (R132) -/

/-- Each residual lies within its snap threshold. -/
def Residuals.Within (snap snapHeading : Nat) (r : Residuals) : Prop :=
  r.x.natAbs ≤ snap ∧ r.y.natAbs ≤ snap ∧ r.z.natAbs ≤ snap ∧ r.h.natAbs ≤ snapHeading

section
variable {snap snapHeading : Nat} {r : Residuals}

theorem snaps_iff : snaps snap snapHeading r = true ↔ ¬ r.Within snap snapHeading := by
  simp only [snaps, Residuals.Within, Bool.or_eq_true, decide_eq_true_eq]
  omega

theorem afterSnap_keeps (h : r.Within snap snapHeading) : afterSnap snap snapHeading r = r :=
  if_neg fun hs => snaps_iff.1 hs h

theorem afterSnap_clears (h : ¬ r.Within snap snapHeading) : afterSnap snap snapHeading r = Residuals.zero :=
  if_pos (snaps_iff.2 h)

/-- After the snap test every residual lies within its threshold. -/
theorem within_afterSnap (snap snapHeading : Nat) (r : Residuals) :
    (afterSnap snap snapHeading r).Within snap snapHeading := by
  by_cases h : r.Within snap snapHeading
  · exact (afterSnap_keeps h).symm ▸ h
  · rw [afterSnap_clears h]
    exact ⟨Nat.zero_le _, Nat.zero_le _, Nat.zero_le _, Nat.zero_le _⟩

/-- Decay leads no residual out of its threshold. -/
theorem Residuals.Within.decay {k : Nat} (h : r.Within snap snapHeading) (hk : k ≤ 16) :
    (decay k r).Within snap snapHeading := by
  obtain ⟨hx, hy, hz, hh⟩ := h
  exact ⟨(natAbs_decayOne_le _ hk).trans hx, (natAbs_decayOne_le _ hk).trans hy,
    (natAbs_decayOne_le _ hk).trans hz, (natAbs_decayOne_le _ hk).trans hh⟩

end

/-- The residuals that a computation leaves lie within the snap thresholds. -/
theorem residualsFor_within {s : State} (tp : Micros) (pres : Option Presentation) (d : CarData)
    (hk : setting s 8 ≤ 16) : (residualsFor s tp pres d).Within (setting s 9) (setting s 10) :=
  (within_afterSnap _ _ _).decay hk

section
variable {s : State} {tp : Micros} {pres : Option Presentation} {d : CarData}

/-- Corrected residuals within their thresholds decay. -/
theorem residualsFor_decays (h : (corrected tp (horizonMicros s) pres d).Within (setting s 9) (setting s 10)) :
    residualsFor s tp pres d = decay (setting s 8) (corrected tp (horizonMicros s) pres d) :=
  congrArg (decay (setting s 8)) (afterSnap_keeps h)

/-- Where one of them exceeds its threshold all four become 0. -/
theorem residualsFor_snaps (h : ¬ (corrected tp (horizonMicros s) pres d).Within (setting s 9) (setting s 10)) :
    residualsFor s tp pres d = Residuals.zero := by
  rw [residualsFor, afterSnap_clears h]
  simp [decay, Residuals.zero]

end

/-- Settles O52: the residuals are the corrected ones, either snapped to 0 or decayed; the bounds follow since
decay takes no residual farther from 0. -/
theorem residualsStayWithinTheSnap : Obligations.ResidualsStayWithinTheSnap := by
  refine ⟨fun s tp pres d hk => ?within, fun s tp pres d => ?computed, fun k r => decayOne_eq r,
    fun k r hk h hr => natAbs_decayOne_lt hk h hr, fun k r hk h => decayOne_reaches_zero r hk h, decayOne_full⟩
  case within =>
    obtain ⟨hx, hy, hz, hh⟩ := residualsFor_within tp pres d hk
    exact ⟨hx, hy, hz, hh, rfl, saturatePosition_mem _, saturatePosition_mem _, saturatePosition_mem _⟩
  case computed =>
    let r := corrected tp (horizonMicros s) pres d
    refine ⟨r.x, r.y, r.z, r.h, ?unused, fun p hp => ⟨fun hsame => ?same, fun hnew => ?new⟩,
      ⟨fun hsnap => ?snapped, fun hkeep => ?decayed⟩, saturatePosition_eq _, saturatePosition_eq _,
      saturatePosition_eq _, toNat_add_ofInt _ _⟩
    case unused => rintro rfl; exact ⟨rfl, rfl, rfl, rfl⟩
    case same =>
      subst hp
      have hr := corrected_same (tp := tp) (horizon := horizonMicros s) ((sameReport_iff d p.used).2 hsame)
      exact Residuals.fields_of_eq hr
    case new =>
      subst hp
      have hr := corrected_new (tp := tp) (horizon := horizonMicros s) (mt (sameReport_iff d p.used).1 hnew)
      exact Residuals.fields_of_eq hr
    case snapped =>
      have hr := residualsFor_snaps hsnap
      exact Residuals.fields_of_eq hr
    case decayed =>
      have hr := residualsFor_decays hkeep
      exact Residuals.fields_of_eq hr

end Sys2Proof.Machine
end

section
/-! The finish list under the confirmation test and under a finisher's entry: its order, its confirmed entries in front,
and the placings that stay (chapter 09, R138, R143, R144). -/

namespace Sys2Proof.Machine

open Sys2Proof Sys2Proof.Safety

/-- The confirmed entries lead the list (R144). -/
def ConfirmedFirst (l : List FinishEntry) : Prop := l.Pairwise fun a b => b.confirmed = true → a.confirmed = true

/-- A placing depends on the cars of the list alone. -/
theorem placingOf_congr {l m : List FinishEntry} (h : l.map FinishEntry.car = m.map FinishEntry.car) (c : Nat) :
    placingOf l c = placingOf m c := by
  have hcars (n : List FinishEntry) :
      n.findIdx? (fun e => e.car == c) = (n.map FinishEntry.car).findIdx? (· == c) := by
    rw [List.findIdx?_map]; rfl
  simp only [placingOf, hcars, h]

/-- The placing of a car that stands in the front part of a list is its placing there. -/
theorem placingOf_append {front : List FinishEntry} {e : FinishEntry} (h : e ∈ front) (back : List FinishEntry) :
    placingOf (front ++ back) e.car = placingOf front e.car := by
  have hfound : (front.findIdx? fun f => f.car == e.car).isSome = true := by
    rw [List.findIdx?_isSome]
    exact List.any_eq_true.2 ⟨e, h, by simp⟩
  obtain ⟨i, hi⟩ := Option.isSome_iff_exists.1 hfound
  simp only [placingOf, List.findIdx?_append, hi, Option.some_or]

/-! ## The confirmation test (R144) -/

section
variable {stamps : List Micros} {l : List FinishEntry} {e : FinishEntry}

theorem mem_confirmFrom_of_confirmed (h : e ∈ l) (hc : e.confirmed = true) : e ∈ confirmFrom stamps l := by
  induction l with
  | nil => exact h
  | cons f rest ih =>
    rw [confirmFrom]
    split
    · rcases List.mem_cons.1 h with rfl | hrest
      · rw [← hc]; exact List.mem_cons_self
      · exact List.mem_cons_of_mem _ (ih hrest)
    · exact h

/-- An entry that the test confirms lies below every stamp. -/
theorem lt_of_mem_confirmFrom (h : e ∈ confirmFrom stamps l) (hc : e.confirmed = true) :
    e ∈ l ∨ ∀ t ∈ stamps, e.time.toNat < t.toNat := by
  induction l with
  | nil => simp [confirmFrom] at h
  | cons f rest ih =>
    rw [confirmFrom] at h
    split at h
    · next htest =>
      rcases List.mem_cons.1 h with rfl | hrest
      · rcases Bool.or_eq_true_iff.1 htest with hf | hbelow
        · exact .inl (by rw [← hf]; exact List.mem_cons_self)
        · exact .inr (by simpa using hbelow)
      · exact (ih hrest).imp_left (List.mem_cons_of_mem _)
    · exact .inl h

theorem confirmedFirst_confirmFrom (h : ConfirmedFirst l) : ConfirmedFirst (confirmFrom stamps l) := by
  induction l with
  | nil => exact h
  | cons f rest ih =>
    rw [confirmFrom]
    split
    · exact List.pairwise_cons.2 ⟨fun _ _ _ => rfl, ih (List.pairwise_cons.1 h).2⟩
    · exact h

theorem confirmFrom_pairwise_before : (confirmFrom stamps l).Pairwise Before ↔ l.Pairwise Before := by
  let mark (e : FinishEntry) : FinishEntry := { e with confirmed := true }
  have hmark (m : List FinishEntry) : m.Pairwise Before ↔ (m.map mark).Pairwise Before :=
    (List.pairwise_map (f := mark) (R := Before)).symm
  rw [hmark, hmark l, confirmFrom_map mark fun _ => rfl]

theorem confirmFrom_cars : (confirmFrom stamps l).map FinishEntry.car = l.map FinishEntry.car :=
  confirmFrom_map _ (fun _ => rfl) _ _

end

/-! ## A finisher's entry (R143) -/

section
variable {e : FinishEntry} {l : List FinishEntry}

theorem mem_insertFinish {f : FinishEntry} : f ∈ insertFinish e l ↔ f = e ∨ f ∈ l := by
  obtain ⟨front, back, hl, hinsert, -, -⟩ := insertFinish_split e l
  rw [hinsert, hl]
  simp only [List.mem_append, List.mem_cons]
  tauto

theorem insertFinish_nodup (h : (l.map FinishEntry.car).Nodup) (hnew : ∀ f ∈ l, f.car ≠ e.car) :
    ((insertFinish e l).map FinishEntry.car).Nodup := by
  obtain ⟨front, back, hl, hinsert, -, -⟩ := insertFinish_split e l
  rw [hinsert, (List.perm_middle.map FinishEntry.car).nodup_iff, ← hl, List.map_cons, List.nodup_cons]
  exact ⟨by simpa using hnew, h⟩

variable (hordered : l.Pairwise Before) (hnew : ∀ f ∈ l, f.car ≠ e.car)
include hordered hnew

/-- In an ordered list the finisher stands behind the entries before it, and before all others. -/
theorem insertFinish_between :
    ∃ front back, l = front ++ back ∧ insertFinish e l = front ++ e :: back ∧ (∀ f ∈ front, Before f e) ∧
      ∀ g ∈ back, Before e g := by
  obtain ⟨front, back, hl, hinsert, hfront, hhead⟩ := insertFinish_split e l
  refine ⟨front, back, hl, hinsert, hfront, ?_⟩
  subst hl
  cases back with
  | nil => simp
  | cons f rest =>
    have hf : Before e f := by
      have hne := hnew f (by simp)
      have hle := hhead f rfl
      simp only [Before]
      omega
    intro g hg
    rcases List.mem_cons.1 hg with rfl | hrest
    · exact hf
    · have hfg : Before f g := (List.pairwise_cons.1 (List.pairwise_append.1 hordered).2.1).1 g hrest
      simp only [Before] at hf hfg ⊢
      omega

theorem insertFinish_ordered : (insertFinish e l).Pairwise Before := by
  obtain ⟨front, back, hl, hinsert, hfront, hback⟩ := insertFinish_between hordered hnew
  rw [hl, List.pairwise_append] at hordered
  obtain ⟨hf, hb, hcross⟩ := hordered
  rw [hinsert, List.pairwise_append]
  refine ⟨hf, List.pairwise_cons.2 ⟨hback, hb⟩, fun a ha b hb => ?_⟩
  rcases List.mem_cons.1 hb with rfl | hb
  · exact hfront a ha
  · exact hcross a ha b hb

variable (hbehind : ∀ f ∈ l, f.confirmed = true → f.time.toNat < e.time.toNat)
include hbehind

/-- A finisher above every confirmed time stands behind every confirmed entry. -/
theorem insertFinish_behind_confirmed :
    ∃ front back, l = front ++ back ∧ insertFinish e l = front ++ e :: back ∧ ∀ g ∈ back, ¬ g.confirmed = true := by
  obtain ⟨front, back, hl, hinsert, -, hback⟩ := insertFinish_between hordered hnew
  refine ⟨front, back, hl, hinsert, fun g hg hconfirmed => ?_⟩
  have hlt := hbehind g (by simp [hl, hg]) hconfirmed
  have hbefore := hback g hg
  simp only [Before] at hbefore
  omega

theorem insertFinish_confirmedFirst (hunconfirmed : ¬ e.confirmed = true) (hlead : ConfirmedFirst l) :
    ConfirmedFirst (insertFinish e l) := by
  obtain ⟨front, back, hl, hinsert, hback⟩ := insertFinish_behind_confirmed hordered hnew hbehind
  rw [hl, ConfirmedFirst, List.pairwise_append] at hlead
  obtain ⟨hf, hb, -⟩ := hlead
  rw [hinsert, ConfirmedFirst, List.pairwise_append]
  refine ⟨hf, List.pairwise_cons.2 ⟨fun b hb hconfirmed => absurd hconfirmed (hback b hb), hb⟩,
    fun a _ b hb hconfirmed => ?_⟩
  rcases List.mem_cons.1 hb with rfl | hb
  · exact absurd hconfirmed hunconfirmed
  · exact absurd hconfirmed (hback b hb)

theorem placingOf_insertFinish {f : FinishEntry} (hf : f ∈ l) (hconfirmed : f.confirmed = true) :
    placingOf (insertFinish e l) f.car = placingOf l f.car := by
  obtain ⟨front, back, hl, hinsert, hback⟩ := insertFinish_behind_confirmed hordered hnew hbehind
  have hfront : f ∈ front := by
    rcases List.mem_append.1 (hl ▸ hf) with h | h
    · exact h
    · exact absurd hconfirmed (hback f h)
  rw [hinsert, hl, placingOf_append hfront, placingOf_append hfront]

end

/-- The clamp leaves a crossing at or above the last accepted stamp (R141). -/
theorem le_clampCrossing {last own : Micros} (h : last.toNat ≤ own.toNat) (crossing : Micros) :
    last.toNat ≤ (clampCrossing last own crossing).toNat := by
  unfold clampCrossing
  split
  · exact le_rfl
  · split <;> omega

end Sys2Proof.Machine
end

section
/-! What keeps the finish order: the moves that a step makes of the race phase, the car table and the finish list
(chapters 05 and 09, R81, R91, R92, R98, R105, R138 to R147). -/

namespace Sys2Proof.Machine

open Sys2Proof Sys2Proof.Safety

/-! ## The invariant -/

/-- The finish order together with RACING cars in RUNNING and CLOSING alone: without the latter a block read in
another phase would begin the finish list there. -/
def FinishSound (s : State) : Prop := FinishKept s ∧ RacingInRace s

/-- Every confirmed entry stays in the list, with its placing (R144). -/
def ConfirmedStay (s t : State) : Prop :=
  ∀ e ∈ s.race.finish, e.confirmed = true →
    placingOf t.race.finish e.car = placingOf s.race.finish e.car ∧ e ∈ t.race.finish

/-- From a sound finish order the race runs on to a sound one, and the confirmed entries stay. -/
def FinishRunsOn (s t : State) : Prop := FinishSound s → FinishSound t ∧ ConfirmedStay s t

/-- The race phase, the car table and the finish list stand as they were. -/
def SameStandings (s t : State) : Prop :=
  t.race.phase = s.race.phase ∧ t.race.cars = s.race.cars ∧ t.race.finish = s.race.finish

theorem forall_racing_iff (s : State) (p : Car → Prop) :
    (∀ k ∈ s.race.cars, k.state = .racing → p k) ↔ ∀ c, (carAt s c).state = .racing → p (carAt s c) := by
  constructor
  · intro h c hracing
    refine h _ ?_ hracing
    have hc := lt_of_racing hracing
    simp [carAt, List.getD_eq_getElem?_getD, hc]
  · intro h k hk hracing
    obtain ⟨c, hc, rfl⟩ := List.mem_iff_getElem.1 hk
    have hcar : carAt s c = s.race.cars[c] := by simp [carAt, List.getD_eq_getElem?_getD, hc]
    rw [← hcar] at hracing ⊢
    exact h c hracing

/-- A car beyond the table is VACANT, so that an entry of a FINISHED car has its number in the table. -/
theorem lt_of_finished {s : State} {c : Nat} (h : (carAt s c).state = .finished) : c < s.race.cars.length := by
  rcases lt_or_ge c s.race.cars.length with hc | hc
  · exact hc
  · simp [carAt, List.getD_eq_getElem?_getD, hc, Car.vacant] at h

/-- The parts of a sound finish order, read car by car. -/
theorem finishSound_iff (s : State) :
    FinishSound s ↔
      s.race.cars.length = 8 ∧
        (s.race.finish.Pairwise Before ∧ (s.race.finish.map FinishEntry.car).Nodup ∧
          ∀ e ∈ s.race.finish, (carAt s e.car).state = .finished) ∧
        (ConfirmedFirst s.race.finish ∧
          ∀ e ∈ s.race.finish, e.confirmed = true →
            ∀ c, (carAt s c).state = .racing → e.time.toNat < (carAt s c).stamp.toNat) ∧
        NoFinishBefore s ∧ RacingInRace s := by
  constructor
  · rintro ⟨⟨hlength, ⟨hordered, hnodup, hfinished⟩, ⟨hlead, hbelow⟩, hempty⟩, hracing⟩
    exact ⟨hlength, ⟨hordered, hnodup, fun e he => (hfinished e he).2⟩,
      ⟨hlead, fun e he hc => (forall_racing_iff s _).1 (hbelow e he hc)⟩, hempty, hracing⟩
  · rintro ⟨hlength, ⟨hordered, hnodup, hfinished⟩, ⟨hlead, hbelow⟩, hempty, hracing⟩
    exact ⟨⟨hlength, ⟨hordered, hnodup, fun e he => ⟨hlength ▸ lt_of_finished (hfinished e he), hfinished e he⟩⟩,
      ⟨hlead, fun e he hc => (forall_racing_iff s _).2 (hbelow e he hc)⟩, hempty⟩, hracing⟩

/-- With an empty finish list nothing but the table's length and the phase of RACING cars is to be kept. -/
theorem finishSound_of_empty {s : State} (hlength : s.race.cars.length = 8) (hfinish : s.race.finish = [])
    (hracing : RacingInRace s) : FinishSound s := by
  rw [finishSound_iff, NoFinishBefore, hfinish]
  exact ⟨hlength, ⟨.nil, .nil, by simp⟩, ⟨.nil, by simp⟩, fun _ => rfl, hracing⟩

theorem confirmedStay_of_empty {s : State} (h : s.race.finish = []) (t : State) : ConfirmedStay s t := by
  simp [ConfirmedStay, h]

theorem ConfirmedStay.of_finish {s t : State} (h : t.race.finish = s.race.finish) : ConfirmedStay s t :=
  fun e he _ => by rw [h]; exact ⟨rfl, he⟩

theorem ConfirmedStay.trans {s t u : State} (hst : ConfirmedStay s t) (htu : ConfirmedStay t u) :
    ConfirmedStay s u := by
  intro e he hconfirmed
  obtain ⟨hplacing, ht⟩ := hst e he hconfirmed
  obtain ⟨hplacing', hu⟩ := htu e ht hconfirmed
  exact ⟨hplacing'.trans hplacing, hu⟩

theorem FinishRunsOn.trans {s t u : State} (hst : FinishRunsOn s t) (htu : FinishRunsOn t u) : FinishRunsOn s u := by
  intro hs
  obtain ⟨ht, hstay⟩ := hst hs
  obtain ⟨hu, hstay'⟩ := htu ht
  exact ⟨hu, hstay.trans hstay'⟩

theorem SameStandings.of_race {s t : State} (h : t.race = s.race) : SameStandings s t := by
  rw [SameStandings, h]
  exact ⟨rfl, rfl, rfl⟩

theorem sameStandings_refl (s : State) : SameStandings s s := .of_race rfl

/-! ## Moves of one part -/

/-- A change of one car that leaves the finish list as sound as it was: a FINISHED car stays FINISHED, and a RACING car
was RACING before, with a stamp no later. -/
def SafeChange (a b : Car) : Prop :=
  (a.state = .finished → b.state = .finished) ∧
    (b.state = .racing → a.state = .racing ∧ a.stamp.toNat ≤ b.stamp.toNat)

theorem safeChange_refl (k : Car) : SafeChange k k := ⟨id, fun h => ⟨h, le_rfl⟩⟩

/-- A car that has not finished may leave RACING. -/
theorem safeChange_of_not_racing {a b : Car} (ha : a.state ≠ .finished) (hb : b.state ≠ .racing) : SafeChange a b :=
  ⟨fun h => absurd h ha, fun h => absurd h hb⟩

/-- The car table changes, each car safely. -/
theorem FinishRunsOn.of_cars {s t : State} (hphase : t.race.phase = s.race.phase)
    (hfinish : t.race.finish = s.race.finish) (hlength : t.race.cars.length = s.race.cars.length)
    (hcars : ∀ c, SafeChange (carAt s c) (carAt t c)) : FinishRunsOn s t := by
  intro hs
  obtain ⟨hlen, ⟨hordered, hnodup, hfinished⟩, ⟨hlead, hbelow⟩, hempty, hracing⟩ := (finishSound_iff s).1 hs
  refine ⟨(finishSound_iff t).2 ?_, .of_finish hfinish⟩
  rw [NoFinishBefore, RacingInRace, exists_racing_iff, hphase, hfinish, hlength]
  rw [RacingInRace, exists_racing_iff] at hracing
  refine ⟨hlen, ⟨hordered, hnodup, fun e he => (hcars e.car).1 (hfinished e he)⟩, ⟨hlead, fun e he hc c hc' => ?_⟩,
    hempty, ?_⟩
  · obtain ⟨hbefore, hstamp⟩ := (hcars c).2 hc'
    exact (hbelow e he hc c hbefore).trans_le hstamp
  · rintro ⟨c, hc⟩
    exact hracing ⟨c, ((hcars c).2 hc).1⟩

theorem FinishRunsOn.of_same {s t : State} (h : SameStandings s t) : FinishRunsOn s t := by
  obtain ⟨hphase, hcars, hfinish⟩ := h
  refine .of_cars hphase hfinish (by rw [hcars]) fun c => ?_
  rw [show carAt t c = carAt s c by simp only [carAt, hcars]]
  exact safeChange_refl _

theorem finishRunsOn_refl (s : State) : FinishRunsOn s s := .of_same (sameStandings_refl s)

/-- One car replaced. -/
theorem FinishRunsOn.of_set {s t : State} {c : Nat} {k : Car} (hphase : t.race.phase = s.race.phase)
    (hfinish : t.race.finish = s.race.finish) (hcars : t.race.cars = s.race.cars.set c k)
    (hk : SafeChange (carAt s c) k) : FinishRunsOn s t := by
  refine .of_cars hphase hfinish (by rw [hcars, List.length_set]) fun b => ?_
  by_cases hb : b = c
  · subst hb
    rcases lt_or_ge b s.race.cars.length with hlt | hge
    · rwa [carAt_of_set hcars hlt]
    · rw [show carAt t b = carAt s b by simp [carAt, hcars, List.getD_eq_getElem?_getD, hge]]
      exact safeChange_refl _
  · rw [carAt_of_set_ne hcars hb]
    exact safeChange_refl _

/-- Every car replaced alike. -/
theorem FinishRunsOn.of_map {s t : State} {f : Car → Car} (hphase : t.race.phase = s.race.phase)
    (hfinish : t.race.finish = s.race.finish) (hcars : t.race.cars = s.race.cars.map f)
    (hf : ∀ k, SafeChange k (f k)) : FinishRunsOn s t := by
  refine .of_cars hphase hfinish (by rw [hcars, List.length_map]) fun c => ?_
  have ht : carAt t c = ((s.race.cars[c]?).map f).getD Car.vacant := by
    simp [carAt, hcars, List.getD_eq_getElem?_getD]
  have hs : carAt s c = (s.race.cars[c]?).getD Car.vacant := by simp [carAt, List.getD_eq_getElem?_getD]
  rw [hs, ht]
  cases s.race.cars[c]? with
  | none => exact safeChange_refl _
  | some k => exact hf k

/-- The race phase changes alone. -/
theorem FinishRunsOn.of_phase {s t : State} (hcars : t.race.cars = s.race.cars)
    (hfinish : t.race.finish = s.race.finish) (hempty : NoFinishBefore t) (hracing : RacingInRace t) :
    FinishRunsOn s t := by
  intro hs
  obtain ⟨⟨hlength, hordered, hlead, -⟩, -⟩ := hs
  refine ⟨⟨⟨by rwa [hcars], ?_, ?_, hempty⟩, hracing⟩, .of_finish hfinish⟩
  · simpa only [FinishOrdered, carAt, hcars, hfinish] using hordered
  · simpa only [ConfirmedLead, hcars, hfinish] using hlead

/-- The list is confirmed anew by the stamps of the RACING cars (R144). -/
theorem FinishRunsOn.of_confirm {s t : State} (h : t.race = confirmList s.race) : FinishRunsOn s t := by
  intro hs
  obtain ⟨hlength, ⟨hordered, hnodup, hfinished⟩, ⟨hlead, hbelow⟩, hempty, hracing⟩ := (finishSound_iff s).1 hs
  have hfinish : t.race.finish = confirmFrom (racingStamps s.race) s.race.finish := by rw [h]; rfl
  have hcar (c : Nat) : carAt t c = carAt s c := by rw [carAt, h]; rfl
  have hstamp (c : Nat) (hc : (carAt s c).state = .racing) : (carAt s c).stamp ∈ racingStamps s.race := by
    have hlt := lt_of_racing hc
    refine List.mem_map_of_mem (List.mem_filter.2 ⟨?_, by simp [hc]⟩)
    simp [carAt, List.getD_eq_getElem?_getD, hlt]
  refine ⟨(finishSound_iff t).2 ?_, fun e he hconfirmed => ?_⟩
  · simp only [hcar, hfinish]
    refine ⟨by rw [h]; exact hlength,
      ⟨confirmFrom_pairwise_before.2 hordered, by rwa [confirmFrom_cars], fun e he => ?_⟩,
      ⟨confirmedFirst_confirmFrom hlead, fun e he hconfirmed c hc => ?_⟩, fun hphase => ?_, ?_⟩
    · have hmem : e.car ∈ s.race.finish.map FinishEntry.car := confirmFrom_cars ▸ List.mem_map_of_mem he
      obtain ⟨f, hf, hef⟩ := List.mem_map.1 hmem
      exact hef ▸ hfinished f hf
    · rcases lt_of_mem_confirmFrom he hconfirmed with hold | hnew
      · exact hbelow e hold hconfirmed c hc
      · exact hnew _ (hstamp c hc)
    · rw [h] at hphase
      rw [hfinish, hempty hphase]
      rfl
    · rw [RacingInRace, h]
      exact hracing
  · rw [hfinish]
    exact ⟨placingOf_congr confirmFrom_cars _, mem_confirmFrom_of_confirmed he hconfirmed⟩

/-! ## Cars that leave RACING (R92, R105, R146, R147) -/

theorem finishRunsOn_testRaceEnd (s : State) : FinishRunsOn s (testRaceEnd s) := by
  by_cases hracing : ∃ k ∈ s.race.cars, k.state = .racing
  · rw [testRaceEnd_stays hracing]
    exact finishRunsOn_refl s
  · by_cases hphase : s.race.phase = .running ∨ s.race.phase = .closing
    · rw [testRaceEnd_ends hphase hracing]
      refine (FinishRunsOn.of_confirm (t := s.withRace (confirmList s.race)) rfl).trans ?_
      refine .of_phase (by simp [confirmList]) (by simp [confirmList]) ?_ ?_
      · simp [NoFinishBefore]
      · simpa [RacingInRace] using hracing
    · rw [testRaceEnd, if_neg fun h => hphase h.1]
      exact finishRunsOn_refl s

theorem finishRunsOn_afterLeavingRacing (cause : PlacingCause) (before : RaceControl) (s : State) :
    FinishRunsOn s (afterLeavingRacing cause before s) :=
  (FinishRunsOn.of_confirm (by simp)).trans (finishRunsOn_testRaceEnd _)

theorem finishRunsOn_retireCar (why : RetireReason) {c : Nat} {s : State} (h : (carAt s c).state = .racing) :
    FinishRunsOn s (retireCar why c s) := by
  refine .trans (t := s.withRace (setCar c (retiredCar why (carAt s c)) s.race)) (.of_set rfl rfl rfl ?_)
    (finishRunsOn_afterLeavingRacing _ _ _)
  exact safeChange_of_not_racing (by simp [h]) (by simp [retiredCar])

theorem finishRunsOn_takeDeadline (s : State) : FinishRunsOn s (takeDeadline s) := by
  refine .trans (t := s.withRace (unplaceRacing s.race)) (.of_map rfl rfl rfl fun k => ?_)
    (finishRunsOn_afterLeavingRacing _ _ _)
  split
  · next hracing => exact safeChange_of_not_racing (by simp [hracing]) (by simp [unplacedCar])
  · exact safeChange_refl k

/-! ## Returned blocks (R139 to R145) -/

/-- A block finishes a RACING car: its time lies above every confirmed one, since the crossing is clamped to the last
accepted stamp or above it (R141 to R144). -/
theorem finishRunsOn_finishedRace {c : Nat} {d : CarData} {s : State} (hracing : (carAt s c).state = .racing)
    (hlater : (carAt s c).stamp.toNat < d.raceStamp.toNat) : FinishRunsOn s (s.withRace (finishedRace c d s)) := by
  intro hs
  obtain ⟨hlength, ⟨hordered, hnodup, hfinished⟩, ⟨hlead, hbelow⟩, -, hrace⟩ := (finishSound_iff s).1 hs
  let t := s.withRace (finishedRace c d s)
  have hcars : t.race.cars = s.race.cars.set c (finishedCar s.time.race d (carAt s c)) := rfl
  have hfinish : t.race.finish = insertFinish (finishEntry c d s) s.race.finish := rfl
  have hself : (carAt t c).state = .finished := by rw [carAt_of_set hcars (lt_of_racing hracing)]; rfl
  have hother {b : Nat} (hb : (carAt t b).state = .racing) : carAt t b = carAt s b :=
    carAt_of_set_ne hcars fun h => by subst h; cases hself.symm.trans hb
  have hnew : ∀ f ∈ s.race.finish, f.car ≠ (finishEntry c d s).car := by
    rintro f hf rfl
    cases (hfinished f hf).symm.trans hracing
  have hbehind : ∀ f ∈ s.race.finish, f.confirmed = true → f.time.toNat < (finishEntry c d s).time.toNat :=
    fun f hf hconfirmed => (hbelow f hf hconfirmed c hracing).trans_le (le_clampCrossing hlater.le d.crossing)
  have hphase : t.race.phase = .running ∨ t.race.phase = .closing := hrace ((exists_racing_iff s).2 ⟨c, hracing⟩)
  refine ⟨(finishSound_iff t).2 ⟨by rw [hcars, List.length_set, hlength], ?_, ?_, ?_, fun _ => hphase⟩, ?_⟩
  · rw [hfinish]
    refine ⟨insertFinish_ordered hordered hnew, insertFinish_nodup hnodup hnew, fun e he => ?_⟩
    rcases mem_insertFinish.1 he with rfl | he
    · exact hself
    · rw [carAt_of_set_ne hcars (hnew e he)]
      exact hfinished e he
  · rw [hfinish]
    have hfirst := insertFinish_confirmedFirst hordered hnew hbehind (by simp [finishEntry]) hlead
    refine ⟨hfirst, fun e he hconfirmed b hb => ?_⟩
    rcases mem_insertFinish.1 he with rfl | he
    · simp [finishEntry] at hconfirmed
    · have hsame := hother hb
      rw [hsame] at hb ⊢
      exact hbelow e he hconfirmed b hb
  · rintro (h | h | h)
    all_goals simp [h] at hphase
  · exact fun e he hconfirmed =>
      ⟨placingOf_insertFinish hordered hnew hbehind he hconfirmed, mem_insertFinish.2 (.inr he)⟩

theorem finishRunsOn_finishCar {c : Nat} {d : CarData} {s : State} (hracing : (carAt s c).state = .racing)
    (hlater : (carAt s c).stamp.toNat < d.raceStamp.toNat) : FinishRunsOn s (finishCar c d s) := by
  intro hs
  have hphase : s.race.phase = .running ∨ s.race.phase = .closing := hs.2 ((exists_racing_iff s).2 ⟨c, hracing⟩)
  let listed := s.withRace (finishedRace c d s)
  let confirmed := listed.withRace (confirmList listed.race)
  have hclosing : (blockFinished c d s).race.phase = .closing := by rw [blockFinished_race, closedRace_phase hphase]
  have hblock : FinishRunsOn s (blockFinished c d s) := by
    refine (finishRunsOn_finishedRace hracing hlater).trans (.trans (t := confirmed) (.of_confirm rfl) ?_)
    refine .of_phase ?_ ?_ (by simp [NoFinishBefore, hclosing]) fun _ => .inr hclosing
    · rw [blockFinished_race, closedRace_eq]; rfl
    · rw [blockFinished_race, closedRace_eq]; rfl
  refine FinishRunsOn.trans hblock ?_ hs
  rw [finishCar_eq]
  split
  · exact finishRunsOn_takeDeadline _
  · exact finishRunsOn_testRaceEnd _

theorem finishRunsOn_readBlock (c : Nat) (syms : List RxSym) (s : State) : FinishRunsOn s (readBlock c syms s) := by
  cases hb : parseBlock syms with
  | none => rw [readBlock_none hb]; exact finishRunsOn_refl s
  | some b =>
    by_cases htaken : ReadsFor c b s ∧ (carAt s c).stamp.toNat < b.data.raceStamp.toNat
    · obtain ⟨hread, hlater⟩ := htaken
      have hracing : (carAt s c).state = .racing := by obtain ⟨-, -, -, h, -⟩ := hread; exact h
      by_cases hlaps : setup s 0 ≤ max b.data.laps (carAt s c).laps
      · rw [readBlock_finishes hb hread hlater hlaps]
        exact finishRunsOn_finishCar hracing hlater
      · refine .trans (t := s.withRace (setCar c (carAfterBlock s.time.race b.data (carAt s c)) s.race))
          (.of_set rfl rfl rfl ⟨fun h => h, fun _ => ⟨hracing, hlater.le⟩⟩)
          (.of_confirm (readBlock_runs_race hb hread hlater hlaps))
    · rw [readBlock_ignored hb (by rwa [not_and_or, not_lt] at htaken)]
      exact finishRunsOn_refl s

/-! ## Joins, leaves and GO (R48, R81, R98, R105) -/

/-- A join gives its answer a VACANT car alone (R98). -/
theorem finishRunsOn_enterCar (j : JoinRequest) (a : JoinAnswer) (s : State) :
    FinishRunsOn s (s.withRace (enterCar j a s.race)) := by
  unfold enterCar
  split
  · exact finishRunsOn_refl s
  · next c =>
    split
    · next hvacant =>
      have hcar : (carAt s c).state = .vacant := hvacant
      exact .of_set rfl rfl rfl (safeChange_of_not_racing (by simp [hcar]) (by simp [enteredCar]))
    · exact finishRunsOn_refl s

/-- An ENTERED car becomes VACANT (R34, R105). -/
theorem finishRunsOn_vacated {c : Nat} {s : State} (h : (carAt s c).state = .entered) :
    FinishRunsOn s (s.withRace (setCar c Car.vacant s.race)) :=
  .of_set rfl rfl rfl (safeChange_of_not_racing (by simp [h]) (by simp [Car.vacant]))

theorem finishRunsOn_processLeave (station seat : Nat) (s : State) :
    FinishRunsOn s (processLeave station seat s).1 := by
  unfold processLeave
  split
  · exact finishRunsOn_refl s
  · dsimp only
    split_ifs with hentered hracing
    · exact finishRunsOn_vacated hentered.2
    · exact finishRunsOn_retireCar _ hracing.2
    · exact finishRunsOn_refl s

/-- GO fires at the anchor in COUNTDOWN alone, where the finish list is empty (R48, R78, R81). -/
theorem finishRunsOn_fireAtAnchor {g : Micros} {s : State} (hphase : s.race.phase = .countdown) :
    FinishRunsOn s (fireAtAnchor g s) := by
  unfold fireAtAnchor
  refine .trans (fun hs => ?_) (finishRunsOn_testRaceEnd _)
  obtain ⟨⟨hlength, -, -, hempty⟩, -⟩ := hs
  have hfinish : s.race.finish = [] := hempty (.inr (.inr hphase))
  exact ⟨finishSound_of_empty (by simpa [startCars] using hlength) (by simpa [startCars] using hfinish)
    (by simp [RacingInRace]), confirmedStay_of_empty hfinish _⟩

theorem finishRunsOn_fireNow {s : State} (hgo : GoFollowsPhase s) : FinishRunsOn s (fireNow s) := by
  unfold fireNow
  split
  · next g hg =>
    split
    · next hanchor =>
      have hsuits := hgo hanchor
      rw [hg] at hsuits
      have hphase : s.race.phase = .countdown := by
        cases hphase : s.race.phase
        case countdown => rfl
        all_goals simp [hphase, goSuits, goFired] at hsuits
      exact finishRunsOn_fireAtAnchor hphase
    · exact .of_same (.of_race (by simp))
  · exact finishRunsOn_refl s
  · exact finishRunsOn_refl s

end Sys2Proof.Machine
end

section
/-! What leaves the race phase and the finish list, and with the car table the whole standings (chapters 01 to 06). -/

namespace Sys2Proof.Machine

open Sys2Proof Sys2Proof.Safety

/-! ## Holds, referrals and held slots (R72, R84, R99 to R102) -/

@[simp] theorem setCauses_standings (causes : HeldCauses) (ev : PhaseEvent) (s : State) :
    (setCauses causes ev s).race.phase = s.race.phase ∧ (setCauses causes ev s).race.finish = s.race.finish := by
  unfold setCauses
  split <;> simp

@[simp] theorem openReferral_standings (j : JoinRequest) (carrier : Carrier) (s : State) :
    (openReferral j carrier s).race.phase = s.race.phase ∧ (openReferral j carrier s).race.finish = s.race.finish := by
  simp [openReferral]

@[simp] theorem closeReferral_standings (j : JoinRequest) (a : JoinAnswer) (s : State) :
    (closeReferral j a s).race.phase = s.race.phase ∧ (closeReferral j a s).race.finish = s.race.finish := by
  simp [closeReferral]

@[simp] theorem loseReferral_standings (s : State) :
    (loseReferral s).race.phase = s.race.phase ∧ (loseReferral s).race.finish = s.race.finish := by
  unfold loseReferral
  split <;> simp

@[simp] theorem decideReferral_standings (a : JoinAnswer) (s : State) :
    (decideReferral a s).race.phase = s.race.phase ∧ (decideReferral a s).race.finish = s.race.finish := by
  unfold decideReferral
  split
  · simp
  · simp
  · split <;> simp

@[simp] theorem loseHeld_standings (place : Nat) (s : State) :
    (loseHeld place s).race.phase = s.race.phase ∧ (loseHeld place s).race.finish = s.race.finish := by
  unfold loseHeld
  split <;> simp

@[simp] theorem loseAllHeld_standings (s : State) :
    (loseAllHeld s).race.phase = s.race.phase ∧ (loseAllHeld s).race.finish = s.race.finish := by
  unfold loseAllHeld
  split <;> simp

@[simp] theorem relayPosted_standings (place : Nat) (m : SlotMsg) (s : State) :
    (relayPosted place m s).2.race.phase = s.race.phase ∧ (relayPosted place m s).2.race.finish = s.race.finish := by
  unfold relayPosted
  split_ifs <;> simp

@[simp] theorem relayAnswered_standings (place : Nat) (m : SlotMsg) (s : State) :
    (relayAnswered place m s).2.race.phase = s.race.phase ∧
      (relayAnswered place m s).2.race.finish = s.race.finish := by
  unfold relayAnswered
  split_ifs <;> simp

/-! ## Returns and surveys at the anchor (R31, R33, R108, R110, R120) -/

@[simp] theorem takeRoll_standings (field : Half) (s : State) :
    (takeRoll field s).race.phase = s.race.phase ∧ (takeRoll field s).race.finish = s.race.finish := by
  unfold takeRoll
  dsimp only
  split <;> simp

@[simp] theorem takeAttention_standings (field : Half) (s : State) :
    (takeAttention field s).race.phase = s.race.phase ∧ (takeAttention field s).race.finish = s.race.finish := by
  unfold takeAttention
  dsimp only
  split <;> simp

@[simp] theorem takeBlocks_race (l : List CarSummary) (syms : List RxSym) (s : State) :
    (takeBlocks l syms s).race = s.race :=
  foldl_keeps State.race (fun s c => by simp) _ _

@[simp] theorem startSurvey_race (s : State) : (startSurvey s).race = s.race := by
  simp [startSurvey, beginSurvey]

@[simp] theorem enterCycling_race (s : State) : (enterCycling s).race = s.race := by
  simp [enterCycling]

@[simp] theorem failSurvey_race (r : SurveyRun) (why : SurveyFailure) (shared : Option (Nat × Serial × Serial))
    (s : State) : (failSurvey r why shared s).race = s.race := by
  simp [failSurvey]

@[simp] theorem endAttempt_race (r : SurveyRun) (why : SurveyFailure) (s : State) :
    (endAttempt r why s).race = s.race := by
  unfold endAttempt
  split <;> simp

/-! ## Boundaries (R13 to R15) -/

@[simp] theorem missReturn_standings (s : State) :
    (missReturn s).race.phase = s.race.phase ∧ (missReturn s).race.finish = s.race.finish := by
  simp [missReturn]

@[simp] theorem enterStalled_standings (s : State) :
    (enterStalled s).race.phase = s.race.phase ∧ (enterStalled s).race.finish = s.race.finish := by
  unfold enterStalled
  dsimp only
  split <;> simp

@[simp] theorem countMissed_standings (s : State) :
    (countMissed s).race.phase = s.race.phase ∧ (countMissed s).race.finish = s.race.finish := by
  unfold countMissed
  split_ifs <;> simp

@[simp] theorem surveyBoundary_standings (s : State) :
    (surveyBoundary s).race.phase = s.race.phase ∧ (surveyBoundary s).race.finish = s.race.finish := by
  unfold surveyBoundary dropAwaited
  split
  · simp [placeBoundary]
  · dsimp only
    split_ifs <;> simp [placeBoundary]

theorem sameStandings_atBoundary (s : State) : SameStandings s (atBoundary s) := by
  unfold atBoundary SameStandings
  split <;> simp

/-! ## Foreign frames, ring loss and cut frames (R2, R4, R10, R16) -/

@[simp] theorem foreignTaken_race (k : FrameKind) (syms : List RxSym) (serial : Serial) (sent : Option Nat)
    (s : State) : (foreignTaken k syms serial sent s).race = s.race := by
  unfold foreignTaken
  split <;> simp [enterDeferred]

@[simp] theorem foreignJudged_race (k : FrameKind) (f : RxFrame) (sent : Option Nat) (s : State) :
    (foreignJudged k f sent s).race = s.race := by
  unfold foreignJudged
  split
  · rfl
  · split <;> simp

@[simp] theorem deferredForward_race (k : FrameKind) (syms : List RxSym) (s : State) :
    (deferredForward k syms s).race = s.race := by
  simp [deferredForward]

@[simp] theorem silenceExpires_race (s : State) : (silenceExpires s).race = s.race := by
  unfold silenceExpires
  split <;> simp [enterLost, returnListening]

@[simp] theorem takeCut_race (k : FrameKind) (slow : Bool) (syms : List RxSym) (sent : Option Nat) (s : State) :
    (takeCut k slow syms sent s).race = s.race := by
  unfold takeCut
  split_ifs
  · simp
  · simp
  · split
    · rfl
    · split <;> simp
  · rfl

@[simp] theorem cutFrame_race (cut : Option CutFrame) (s : State) : (cutFrame cut s).race = s.race := by
  cases cut <;> simp [cutFrame]

@[simp] theorem hearCut_race (c : CutFrame) (s : State) : (hearCut c s).race = s.race := by
  unfold hearCut
  split
  · split <;> simp
  · simp

/-! ## The station's own commands (R19 to R21, R156, R168, R169) -/

@[simp] theorem enterListening_race (s : State) : (enterListening s).race = s.race := by
  simp [enterListening]

@[simp] theorem beginAnchor_race (s : State) : (beginAnchor s).race = s.race := by
  unfold beginAnchor turnToLoop
  dsimp only
  split_ifs <;> simp [placeBoundary]

@[simp] theorem enterStandby_race (s : State) : (enterStandby s).race = s.race := by
  simp [enterStandby]

@[simp] theorem standbyCut_race (cut : Option CutFrame) (s : State) : (standbyCut cut s).race = s.race := by
  cases cut <;> simp [standbyCut]

@[simp] theorem configureAct_race (address role seats : Nat) (title revision : Half) (s : State) :
    (configureAct address role seats title revision s).1.race = s.race := by
  unfold configureAct done
  dsimp only
  split <;> simp

@[simp] theorem statusAct_race (part : StatusPart) (s : State) : (statusAct part s).1.race = s.race := by
  unfold statusAct
  split <;> rfl

@[simp] theorem abortAct_race (channel : Nat) (s : State) : (abortAct channel s).race = s.race := by
  unfold abortAct
  dsimp only
  split_ifs <;> simp

@[simp] theorem offerBundle_race (b : Bundle) (s : State) : (offerBundle b s).race = s.race := by
  unfold offerBundle
  split <;> simp

end Sys2Proof.Machine
end

section
/-! What the slots, the frames and the boundaries of a station make of the finish order (R15, R26, R34, R71, R91). -/

namespace Sys2Proof.Machine

open Sys2Proof Sys2Proof.Safety

/-- A walk keeps the finish order when each of its steps does. -/
theorem FinishRunsOn.foldl {α : Type} {f : State → α → State} (h : ∀ s a, FinishRunsOn s (f s a)) (l : List α)
    (s : State) : FinishRunsOn s (l.foldl f s) := by
  induction l generalizing s with
  | nil => exact finishRunsOn_refl s
  | cons a l ih => exact (h s a).trans (ih (f s a))

theorem FinishRunsOn.of_race {s t : State} (h : t.race = s.race) : FinishRunsOn s t := .of_same (.of_race h)

/-! ## Slots at the anchor (R69 to R72) -/

theorem finishRunsOn_serveJoin (place : Nat) (m : SlotMsg) (s : State) : FinishRunsOn s (serveJoin place m s).1 := by
  unfold serveJoin
  dsimp only
  split
  · exact finishRunsOn_refl s
  · split
    · next a _ => exact finishRunsOn_enterCar _ a s
    · split
      · exact .of_same (by simp [SameStandings])
      · exact finishRunsOn_refl s

theorem finishRunsOn_anchorServe (place : Nat) (m : SlotMsg) (s : State) :
    FinishRunsOn s (anchorServe place m s).1 := by
  unfold anchorServe
  split
  · split
    · unfold serveHeld
      split
      · exact .of_same (by simp [SameStandings])
      · exact finishRunsOn_refl s
    · exact finishRunsOn_serveJoin place m s
  · unfold serveLeave
    split
    · exact finishRunsOn_refl s
    · exact finishRunsOn_processLeave _ _ s
  · have hserve := serveSlot_leaves m s
    split
    · exact .of_race (by simp_all)
    · exact .of_race (by simp_all)

theorem finishRunsOn_relaySlot (place : Nat) (syms : List RxSym) (s : State) :
    FinishRunsOn s (relaySlot place syms s).2 := by
  unfold relaySlot
  split
  · exact .of_same (by simp [SameStandings])
  · exact finishRunsOn_refl s
  · next m _ =>
    split_ifs
    · exact .of_same (by simp [SameStandings])
    · exact .of_same (by simp [SameStandings])
    · have hserve := finishRunsOn_anchorServe place m s
      split
      · next t o heq => exact (heq ▸ hserve).trans (.of_same (by simp [SameStandings]))
      · next t heq => exact (heq ▸ hserve).trans (.of_same (by simp [SameStandings]))
      · next t heq => exact (heq ▸ hserve).trans (.of_same (by simp [SameStandings]))
    · exact .of_same (by simp [SameStandings])

theorem finishRunsOn_relaySlots (syms : List RxSym) (i n : Nat) (s : State) :
    FinishRunsOn s (relaySlots syms i n s).2 := by
  induction n generalizing i s with
  | zero => exact finishRunsOn_refl s
  | succ n ih => exact (finishRunsOn_relaySlot i _ s).trans (ih _ _)

/-! ## A return at the anchor (R14, R26, R139) -/

theorem finishRunsOn_readBlocks (syms : List RxSym) (s : State) : FinishRunsOn s (readBlocks syms s) :=
  .foldl (fun s c => finishRunsOn_readBlock c _ s) _ s

theorem finishRunsOn_blocksTaken (h : Header) (syms : List RxSym) (s : State) :
    FinishRunsOn s (blocksTaken h syms s) := by
  let s1 := s.withCyc { s.cyc with awaited := none, missed := 0 }
  have hread := finishRunsOn_readBlocks syms (s1.withSlots (takeClaim h.claim s1.slots))
  refine .trans (.of_race rfl) (hread.trans (.of_same ?_))
  unfold blocksTaken
  dsimp only
  split <;> simp [s1, SameStandings]

theorem finishRunsOn_handReturn (h : Header) (syms : List RxSym) (s : State) :
    FinishRunsOn s (handReturn h syms s) := by
  rw [handReturn_eq]
  exact (finishRunsOn_blocksTaken h syms s).trans ((finishRunsOn_relaySlots syms 0 6 _).trans (.of_race rfl))

theorem finishRunsOn_validReturn (h : Header) (syms : List RxSym) (s : State) :
    FinishRunsOn s (validReturn h syms s) := by
  refine (finishRunsOn_handReturn h syms s).trans (.of_race ?_)
  unfold validReturn noteNewcomer
  dsimp only
  split_ifs <;> simp

theorem finishRunsOn_anchorCycle (f : RxFrame) (s : State) : FinishRunsOn s (anchorCycle f s) := by
  unfold anchorCycle
  split
  · exact finishRunsOn_refl s
  · split_ifs
    · exact finishRunsOn_refl s
    · exact .of_race (by simp)
    · exact finishRunsOn_validReturn _ _ s
    · exact finishRunsOn_refl s

/-! ## Surveys (R31 to R34) -/

/-- A car of a missing station: ENTERED it is vacated, RACING it is retired (R34). -/
theorem finishRunsOn_missingCar (m : RingMap) (s : State) (c : Nat) : FinishRunsOn s (missingCar m s c) := by
  unfold missingCar
  dsimp only
  split
  · split
    · next hentered => exact finishRunsOn_vacated hentered
    · next hracing => exact finishRunsOn_retireCar _ hracing
    · exact finishRunsOn_refl s
  · exact finishRunsOn_refl s

theorem finishRunsOn_applyMissing (m : RingMap) (s : State) : FinishRunsOn s (applyMissing m s) := by
  unfold applyMissing
  split
  · exact finishRunsOn_refl s
  · exact .foldl (finishRunsOn_missingCar m) _ s

theorem finishRunsOn_succeedSurvey (r : SurveyRun) (entries : List CollectEntry) (trip : Nat) (s : State) :
    FinishRunsOn s (succeedSurvey r entries trip s) := by
  let u := s.withSurvey (adoptMap entries trip s.survey)
  have hmissing : FinishRunsOn s (applyMissing u.survey.map u) :=
    .trans (.of_race rfl) (finishRunsOn_applyMissing u.survey.map u)
  exact hmissing.trans (.of_same (by simp [SameStandings, succeedSurvey, clearFault, u]))

theorem finishRunsOn_judgePass (r : SurveyRun) (overflow : Bool) (entries : List CollectEntry) (trip : Nat)
    (s : State) : FinishRunsOn s (judgePass r overflow entries trip s) := by
  unfold judgePass
  dsimp only
  split
  · exact .of_race (by simp)
  · split
    · exact .of_race (by simp)
    · split
      · exact .of_race rfl
      · unfold judgeSecond
        split
        · exact .of_race (by simp)
        · split_ifs
          · exact .of_race (by simp)
          · exact .of_race (by simp)
          · exact .of_race (by simp)
          · exact finishRunsOn_succeedSurvey _ _ _ s

theorem finishRunsOn_anchorCollect (f : RxFrame) (trip : Nat) (s : State) :
    FinishRunsOn s (anchorCollect f trip s) := by
  unfold anchorCollect
  split
  · exact finishRunsOn_refl s
  · split
    · split
      · exact finishRunsOn_refl s
      · exact .of_race (by simp)
    · split
      · split
        · exact finishRunsOn_judgePass _ _ _ _ s
        · exact finishRunsOn_refl s
      · exact finishRunsOn_refl s

/-! ## Frames as they are heard (R2, R4) -/

/-- A frame heard keeps the finish order when its taking does. -/
theorem finishRunsOn_hearFrame {take : State → State} (h : ∀ u, FinishRunsOn u (take u)) (k : FrameKind)
    (f : RxFrame) (sent : Option Nat) (s : State) : FinishRunsOn s (hearFrame k f sent take s) := by
  unfold hearFrame
  split
  · split
    · exact .trans (.of_race (by simp)) (h _)
    · exact .of_race (by simp)
  · exact .of_race (by simp)

theorem finishRunsOn_anchorFrame {take : State → State} (h : ∀ u, FinishRunsOn u (take u)) (k : FrameKind)
    (f : RxFrame) (sent : Option Nat) (s : State) : FinishRunsOn s (anchorFrame k f sent take s) := by
  have hhears (u : State) : FinishRunsOn u (anchorHears k f sent take u) := by
    refine finishRunsOn_hearFrame (fun v => ?_) k f sent u
    split_ifs
    · exact .of_race (by simp)
    · exact h v
    · exact finishRunsOn_refl v
  unfold anchorFrame
  split_ifs
  · split
    · exact finishRunsOn_refl s
    · next l _ =>
      split
      · exact (FinishRunsOn.of_same (t := comeRound l s) ⟨rfl, rfl, rfl⟩).trans (hhears _)
      · exact finishRunsOn_refl s
  · exact hhears s
  · exact finishRunsOn_refl s

theorem nodeFrame_race (k : FrameKind) (f : RxFrame) (s : State) : (nodeFrame k f s).race = s.race := by
  unfold nodeFrame hearFrame
  split
  · rfl
  · dsimp only
    split
    · split
      · split <;> simp
      · simp
    · simp

end Sys2Proof.Machine
end

section
/-! Every step keeps the finish order: each command and event lets it run on, or empties the race
(R82, R83, R138, R143, R144, R170, R179). -/

namespace Sys2Proof.Machine

open Sys2Proof Sys2Proof.Safety

/-- From a sound finish order a sound one comes about, with an empty list or with every confirmed entry where it
stood. -/
def KeepsFinish (s t : State) : Prop :=
  FinishSound s → FinishSound t ∧ (t.race.finish = [] ∨ ConfirmedStay s t)

/-- A command or event completes and keeps the finish order. -/
def CompletesKeepingFinish (s : State) (o : Host.Outcome State Fault Refusal) : Prop :=
  ∃ t, o = .next t ∧ KeepsFinish s t

theorem FinishRunsOn.keeps {s t : State} (h : FinishRunsOn s t) : KeepsFinish s t :=
  fun hs => (h hs).imp_right .inr

theorem KeepsFinish.of_same {s t : State} (h : SameStandings s t) : KeepsFinish s t := (FinishRunsOn.of_same h).keeps

/-- A sound finish order stays sound when the whole race is emptied (R82, R83, R170, R179). -/
theorem KeepsFinish.of_emptied {s t : State} (hcars : t.race.cars = List.replicate 8 Car.vacant)
    (hfinish : t.race.finish = []) : KeepsFinish s t := by
  refine fun _ => ⟨finishSound_of_empty (by rw [hcars, List.length_replicate]) hfinish ?_, .inl hfinish⟩
  rw [RacingInRace, exists_racing_iff]
  rintro ⟨c, hracing⟩
  rw [carAt_emptied hcars] at hracing
  cases hracing

/-- Operations that leave the standings may stand before and behind. -/
theorem KeepsFinish.between {s u v t : State} (hbefore : SameStandings s u) (h : KeepsFinish u v)
    (hbehind : SameStandings v t) : KeepsFinish s t := by
  intro hs
  obtain ⟨hu, hstay⟩ := FinishRunsOn.of_same hbefore hs
  obtain ⟨hv, hstay'⟩ := h hu
  obtain ⟨ht, hstay''⟩ := FinishRunsOn.of_same hbehind hv
  refine ⟨ht, hstay'.imp (fun hempty => ?_) fun hkept => hstay.trans (hkept.trans hstay'')⟩
  obtain ⟨-, -, hfinish⟩ := hbehind
  rw [hfinish, hempty]

theorem KeepsFinish.completes {s t : State} (h : KeepsFinish s t) : CompletesKeepingFinish s (.next t) := ⟨t, rfl, h⟩

theorem completes_of_race {s t : State} (h : t.race = s.race) : CompletesKeepingFinish s (.next t) :=
  (KeepsFinish.of_same (.of_race h)).completes

/-! ## Commands of the cabinet port and timed events -/

/-- A command of the cabinet port keeps the finish order when what it does behind its tests keeps it. -/
theorem completes_takeCommand (k : Cmd) {tests : State → List (Bool × RefusalReason)}
    {act : State → State → State × ReplyBody}
    (h : ∀ u, firstRefusal (tests u) = none → KeepsFinish u (act u u).1) (s : State) :
    CompletesKeepingFinish s (.next (takeCommand k (fun s => tested (tests s) (act s) s) s)) := by
  refine KeepsFinish.completes ?_
  unfold takeCommand
  split
  · have htested : KeepsFinish (dropFrame s) (tested (tests (dropFrame s)) (act (dropFrame s)) (dropFrame s)).1 := by
      unfold tested
      split
      · exact .of_same (sameStandings_refl _)
      · next hpassed => exact h _ hpassed
    exact .between (.of_race (by simp)) htested (.of_race (by simp))
  · exact .of_same (sameStandings_refl s)

/-- A command of the cabinet port that leaves the standings. -/
theorem completes_command (k : Cmd) {tests : State → List (Bool × RefusalReason)}
    {act : State → State → State × ReplyBody} (h : ∀ u, SameStandings u (act u u).1) (s : State) :
    CompletesKeepingFinish s (.next (takeCommand k (fun s => tested (tests s) (act s) s) s)) :=
  completes_takeCommand k (fun u _ => .of_same (h u)) s

theorem sameStandings_elapse (d : Nat) (s : State) : SameStandings s (elapse d s) := ⟨rfl, rfl, rfl⟩

theorem goFollowsPhase_elapse (d : Nat) {s : State} (h : GoFollowsPhase s) : GoFollowsPhase (elapse d s) := by
  intro hanchor
  rw [elapse_time, elapseTime_go]
  exact h hanchor

/-- A timed event keeps the finish order when its effect at its instant does. -/
theorem completes_atInstant {remaining : Option Nat} {act : State → State} {s : State}
    (h : ∀ d, remaining = some d → FinishRunsOn (elapse d s) (act (elapse d s))) :
    CompletesKeepingFinish s (.next (atInstant remaining act s)) := by
  refine KeepsFinish.completes ?_
  obtain ⟨-, e⟩ | ⟨d, hd, e⟩ := atInstant_cases remaining act s
  · rw [e]
    exact .of_same (sameStandings_refl s)
  · rw [e]
    exact ((FinishRunsOn.of_same (sameStandings_elapse d s)).trans (h d hd)).keeps

/-! ## The race commands (R46, R80, R82, R83, R100) -/

/-- A race command that has passed its tests stands in one of its phases (R79). -/
theorem phaseIn_of_passed {fits : Bool} {s : State} {phases : List Phase} {rest : List (Bool × RefusalReason)}
    (h : firstRefusal (anchorTests fits s ++ (phaseIn s phases, .phase) :: rest) = none) :
    s.race.phase ∈ phases := by
  by_contra hno
  have hphase : phaseIn s phases = false := by simpa [phaseIn] using hno
  simp only [firstRefusal_append, hphase] at h
  cases hbase : firstRefusal (anchorTests fits s) with
  | none => simp [hbase, firstRefusal] at h
  | some r => simp [hbase] at h

/-- Before the race no car is RACING and the finish list is empty, so that the phase may change alone. -/
theorem FinishRunsOn.of_beforeRace {s t : State} (hphase : s.race.phase = .idle ∨ s.race.phase = .gathering)
    (hcars : t.race.cars = s.race.cars) (hfinish : t.race.finish = s.race.finish) : FinishRunsOn s t := by
  intro hs
  obtain ⟨⟨-, -, -, hempty⟩, hracing⟩ := id hs
  have hlist : t.race.finish = [] := by rw [hfinish, hempty (hphase.imp_right .inl)]
  refine FinishRunsOn.of_phase hcars hfinish (fun _ => hlist) (fun h => ?_) hs
  have hrun := hracing (hcars ▸ h)
  rcases hphase with h | h
  · simp [h] at hrun
  · simp [h] at hrun

/-- Close Gathering vacates the ENTERED cars alone (R80). -/
theorem finishRunsOn_vacateEntered {s t : State} (hphase : s.race.phase = .gathering)
    (hcars : t.race.cars = (vacateEntered s.race).cars) (hfinish : t.race.finish = s.race.finish) :
    FinishRunsOn s t := by
  refine .trans (t := s.withRace (vacateEntered s.race)) (.of_map rfl rfl rfl fun k => ?_)
    (.of_beforeRace (.inr hphase) hcars hfinish)
  split
  · next hentered => exact safeChange_of_not_racing (by simp [hentered]) (by simp [Car.vacant])
  · exact safeChange_refl k

theorem keepsFinish_emptyRace (ev : PhaseEvent) (s : State) : KeepsFinish s (emptyRace ev s) := by
  refine .of_emptied (emptyRace_cars ev s) ?_
  unfold emptyRace
  dsimp only
  split <;> simp [emptiedRace, emptyTable]

/-- Admit gives a VACANT car (R100). -/
theorem finishRunsOn_admitAct (choice : CarChoice) (s : State) : FinishRunsOn s (admitAct choice s).1 := by
  unfold admitAct
  split
  · next j _ _ c _ hok =>
    refine .of_set (c := c) (k := enteredCar j) (by simp [setCar]) (by simp [setCar]) (by simp [setCar]) ?_
    exact safeChange_of_not_racing (by simp [admittedCar_vacant hok]) (by simp [enteredCar])
  · exact finishRunsOn_refl s
  · exact finishRunsOn_refl s

/-! ## Seat and table commands -/

theorem finishRunsOn_ownJoin (j : JoinRequest) (s : State) : FinishRunsOn s (ownJoin j s) := by
  unfold ownJoin
  split
  · next a _ => exact (finishRunsOn_enterCar j a s).trans (.of_race (by simp))
  · split
    · exact .of_same (by simp [SameStandings])
    · exact finishRunsOn_refl s

theorem finishRunsOn_joinAct (seat : Nat) (tag : List Byte) (s : State) : FinishRunsOn s (joinAct seat tag s).1 := by
  unfold joinAct
  dsimp only
  split
  · exact .trans (.of_race (by simp)) (finishRunsOn_ownJoin _ _)
  · exact .of_race (by simp [postUrgent])

theorem finishRunsOn_leaveAct (seat : Nat) (s : State) : FinishRunsOn s (leaveAct seat s).1 := by
  unfold leaveAct
  split
  · exact (finishRunsOn_processLeave (address s) seat s).trans (.of_race (by simp))
  · exact .of_race (by simp [postUrgent])

theorem completes_localWrite (fits : Bool) (table : TableName) (start : Nat) (values : List Nat) (s : State) :
    CompletesKeepingFinish s (.next (takeCommand .tableWrite (localWrite fits table start values) s)) := by
  cases table <;> exact completes_command _ (fun _ => ⟨rfl, rfl, rfl⟩) s

theorem completes_localRead (fits : Bool) (table : TableName) (start count : Nat) (s : State) :
    CompletesKeepingFinish s (.next (takeCommand .tableRead (localRead fits table start count) s)) := by
  cases table <;> exact completes_command _ (fun _ => ⟨rfl, rfl, rfl⟩) s

/-! ## Events that may change nothing -/

theorem completes_lossOfSignal (cut : Option CutFrame) (s : State) :
    CompletesKeepingFinish s (execLossOfSignal cut s) := by
  unfold execLossOfSignal
  split_ifs
  · exact completes_of_race (by simp)
  · exact completes_of_race rfl
  · exact completes_of_race rfl

theorem completes_fillRunLimit (s : State) : CompletesKeepingFinish s (execFillRunLimit s) := by
  unfold execFillRunLimit
  split
  · exact completes_of_race (by simp)
  · exact completes_of_race rfl

theorem completes_errorRunLimit (run : ErrorRun) (s : State) : CompletesKeepingFinish s (execErrorRunLimit run s) := by
  unfold execErrorRunLimit errorsInside
  split
  · split
    · exact completes_of_race (by simp)
    · exact completes_of_race rfl
  · split
    · exact completes_of_race (by split <;> simp)
    · exact completes_of_race rfl

theorem completes_foreignFrame (k : FrameKind) (f : RxFrame) (sent : Option Nat) (s : State) :
    CompletesKeepingFinish s (execForeignFrame k f sent s) := by
  unfold execForeignFrame
  split
  · exact completes_of_race rfl
  · have hjudged (u : State) : FinishRunsOn u (foreignJudged k f sent u) := .of_race (by simp)
    exact (finishRunsOn_anchorFrame hjudged k f sent s).keeps.completes

theorem completes_fieldEdge (low : Nat) (s : State) : CompletesKeepingFinish s (execFieldEdge low s) := by
  unfold execFieldEdge
  split <;> exact completes_of_race rfl

theorem completes_fieldComputationEnd (s : State) : CompletesKeepingFinish s (execFieldComputationEnd s) := by
  unfold execFieldComputationEnd
  split
  · exact completes_of_race rfl
  · exact completes_of_race (by simp)

theorem completes_commandByteWrite (b : Byte) (s : State) : CompletesKeepingFinish s (execCommandByteWrite b s) := by
  unfold execCommandByteWrite
  split <;> exact completes_of_race rfl

theorem completes_reportByteRead (s : State) : CompletesKeepingFinish s (execReportByteRead s) := by
  unfold execReportByteRead
  split <;> exact completes_of_race rfl

theorem completes_emptyFrame (s : State) : CompletesKeepingFinish s (execEmptyFrame s) := by
  unfold execEmptyFrame
  split <;> exact completes_of_race rfl

theorem completes_damagedFrame (s : State) : CompletesKeepingFinish s (execDamagedFrame s) := by
  unfold execDamagedFrame
  split
  · split
    · exact completes_of_race (by simp)
    · split
      · exact completes_of_race (by simp)
      · exact completes_of_race rfl
  · exact completes_of_race rfl

theorem completes_unknownCommand (code : Byte) (s : State) : CompletesKeepingFinish s (execUnknownCommand code s) := by
  unfold execUnknownCommand
  split
  · exact completes_of_race (by simp)
  · exact completes_of_race rfl

theorem completes_replyPlaced (s : State) : CompletesKeepingFinish s (execReplyPlaced s) := by
  unfold execReplyPlaced
  split
  · exact completes_of_race rfl
  · split <;> exact completes_of_race rfl

theorem completes_reportPendingPlaced (s : State) : CompletesKeepingFinish s (execReportPendingPlaced s) := by
  unfold execReportPendingPlaced
  split
  · exact completes_of_race rfl
  · split <;> exact completes_of_race rfl

theorem completes_noticePlaced (s : State) : CompletesKeepingFinish s (execNoticePlaced s) := by
  unfold execNoticePlaced
  split_ifs <;> exact completes_of_race rfl

/-- The lost limit is reached by a RACING car alone (R93). -/
theorem completes_lostCarLimit (car : Nat) (s : State) : CompletesKeepingFinish s (execLostCarLimit car s) := by
  refine completes_atInstant fun d hd => finishRunsOn_retireCar _ ?_
  unfold lostRemaining at hd
  split at hd
  · next hdue => simpa [isRacing, carAt] using hdue.2
  · cases hd

/-! ## Every command and event, and the step -/

/-- GO fires in COUNTDOWN alone, so that the finish order needs the schedule to follow the phase. -/
theorem exec_keepsFinish (i : Instr) {s : State} (hgo : GoFollowsPhase s) : CompletesKeepingFinish s (exec i s) := by
  match i with
  | .powerReset => exact (KeepsFinish.of_emptied rfl rfl).completes
  | .lossOfSignal cut => exact completes_lossOfSignal cut s
  | .fillRunLimit => exact completes_fillRunLimit s
  | .errorRunLimit run => exact completes_errorRunLimit run s
  | .nodeCycleFrame f => exact completes_of_race (nodeFrame_race .cycle f s)
  | .silenceLimit => exact completes_atInstant fun _ _ => .of_race (silenceExpires_race _)
  | .cycleBoundary => exact completes_atInstant fun _ _ => .of_same (sameStandings_atBoundary _)
  | .returnMissLimit => exact completes_atInstant fun _ _ => .of_same (by simp [SameStandings])
  | .cycleReturn f =>
    exact (finishRunsOn_anchorFrame (finishRunsOn_anchorCycle f) .cycle f none s).keeps.completes
  | .foreignFrame kind f sent => exact completes_foreignFrame kind f sent s
  | .nodeCollectFrame f => exact completes_of_race (nodeFrame_race .collect f s)
  | .collectReturn f trip =>
    exact (finishRunsOn_anchorFrame (finishRunsOn_anchorCollect f trip) .collect f none s).keeps.completes
  | .linkWaitEnd => exact completes_atInstant fun _ _ => .of_race rfl
  | .raceWaitEnd => exact completes_atInstant fun _ _ => .of_race rfl
  | .raceTimeTop => exact completes_atInstant fun _ _ => .of_race rfl
  | .goPulseEnd => exact completes_atInstant fun _ _ => .of_race rfl
  | .goFire => exact completes_atInstant fun d _ => finishRunsOn_fireNow (goFollowsPhase_elapse d hgo)
  | .fieldEdge low => exact completes_fieldEdge low s
  | .fieldComputationEnd => exact completes_fieldComputationEnd s
  | .outstandingWaitLimit => exact completes_of_race (by simp)
  | .claimAgeLimit => exact completes_atInstant fun _ _ => .of_race rfl
  | .closeDeadline => exact completes_atInstant fun _ _ => finishRunsOn_takeDeadline _
  | .lostCarLimit car => exact completes_lostCarLimit car s
  | .referralTimeout => exact completes_atInstant fun _ _ => .of_same (by simp [SameStandings])
  | .receiveIdleLimit e => exact completes_atInstant fun _ _ => .of_race (by simp)
  | .commandByteWrite b => exact completes_commandByteWrite b s
  | .reportByteRead => exact completes_reportByteRead s
  | .emptyFrame => exact completes_emptyFrame s
  | .damagedFrame => exact completes_damagedFrame s
  | .unknownCommand code => exact completes_unknownCommand code s
  | .replyPlaced => exact completes_replyPlaced s
  | .reportPendingPlaced => exact completes_reportPendingPlaced s
  | .noticePlaced => exact completes_noticePlaced s
  | .lockChange b => exact completes_of_race rfl
  | .configure .. => exact completes_command _ (fun u => .of_race (configureAct_race _ _ _ _ _ u)) s
  | .restart _ => exact completes_takeCommand _ (fun u _ => .of_emptied (restartBlocks_cars u) rfl) s
  | .standby args => exact completes_command _ (fun u => .of_race (by dsimp only [done]; split <;> simp)) s
  | .resumeRing _ =>
    exact completes_command _ (fun u => .of_race (by dsimp only [done]; split <;> simp [leaveStandby])) s
  | .status _ part => exact completes_command _ (fun u => .of_race (statusAct_race part u)) s
  | .survey _ => exact completes_command _ (fun u => .of_race (by simp)) s
  | .openGathering _ =>
    refine completes_takeCommand _ (fun u hpassed => FinishRunsOn.keeps ?_) s
    have hphase : u.race.phase = .idle := by simpa using phaseIn_of_passed hpassed
    exact .of_beforeRace (.inl hphase) (by simp [done]) (by simp [done])
  | .closeGathering _ =>
    refine completes_takeCommand _ (fun u hpassed => FinishRunsOn.keeps ?_) s
    have hphase : u.race.phase = .gathering := by simpa using phaseIn_of_passed hpassed
    exact finishRunsOn_vacateEntered hphase (by simp [done]) (by simp [done, vacateEntered])
  | .startRace .. =>
    refine completes_takeCommand _ (fun u hpassed => FinishRunsOn.keeps ?_) s
    have hphase : u.race.phase = .gathering := by simpa using phaseIn_of_passed hpassed
    exact .of_beforeRace (.inr hphase) (by simp [done]) (by simp [done])
  | .abortRace _ => exact completes_takeCommand _ (fun u _ => keepsFinish_emptyRace .abortRace u) s
  | .hold _ => exact completes_command _ (fun u => by simp [done, SameStandings]) s
  | .resume _ => exact completes_command _ (fun u => by simp [resumeAct, SameStandings]) s
  | .clearRace _ => exact completes_takeCommand _ (fun u _ => keepsFinish_emptyRace .clearRace u) s
  | .raceSetupWrite .. => exact completes_command _ (fun _ => ⟨rfl, rfl, rfl⟩) s
  | .raceSetupRead .. => exact completes_command _ (fun _ => .of_race rfl) s
  | .gridWrite .. => exact completes_command _ (fun _ => ⟨rfl, rfl, rfl⟩) s
  | .gridRead .. => exact completes_command _ (fun _ => .of_race rfl) s
  | .poll .. => exact completes_command _ (fun _ => .of_race rfl) s
  | .clearStations _ => exact completes_command _ (fun _ => .of_race rfl) s
  | .admitCar _ choice => exact completes_takeCommand _ (fun u _ => (finishRunsOn_admitAct choice u).keeps) s
  | .refuse _ => exact completes_command _ (fun u => by simp [done, SameStandings]) s
  | .join _ seat tag => exact completes_takeCommand _ (fun u _ => (finishRunsOn_joinAct seat tag u).keeps) s
  | .leave _ seat => exact completes_takeCommand _ (fun u _ => (finishRunsOn_leaveAct seat u).keeps) s
  | .setReady .. => exact completes_command _ (fun _ => .of_race rfl) s
  | .requestAttention .. => exact completes_command _ (fun _ => .of_race rfl) s
  | .withdrawAttention _ => exact completes_command _ (fun _ => .of_race rfl) s
  | .localTrigger _ => exact completes_command _ (fun _ => .of_race rfl) s
  | .carReport .. => exact completes_command _ (fun _ => .of_race rfl) s
  | .game .. => exact completes_command _ (fun _ => .of_race rfl) s
  | .bulkOpen .. => exact completes_command _ (fun _ => .of_race rfl) s
  | .bulkData .. => exact completes_command _ (fun u => .of_race (by simp [dataAct])) s
  | .bulkAbort _ channel => exact completes_command _ (fun u => .of_race (abortAct_race channel u)) s
  | .tableWrite fits table start values => exact completes_localWrite fits table start values s
  | .tableRead fits table start count => exact completes_localRead fits table start count s
  | .remoteTableWrite .. => exact completes_command _ (fun _ => .of_race rfl) s
  | .remoteTableRead .. => exact completes_command _ (fun _ => .of_race rfl) s
  | .protectOn _ => exact completes_command _ (fun _ => .of_race rfl) s
  | .protectOff _ => exact completes_command _ (fun _ => .of_race rfl) s
  | .protectionListWrite .. => exact completes_command _ (fun _ => .of_race rfl) s

/-- A tick, too: one of the events that are due, or a µs that passes. -/
theorem tick_keepsFinish {s : State} (hgo : GoFollowsPhase s) : CompletesKeepingFinish s (tick s) := by
  unfold tick
  split
  · exact (KeepsFinish.of_same (sameStandings_elapse 1 s)).completes
  · next first rest _ =>
    have hpick : (pickDue first rest s).2 = s ∨ ∃ n, (pickDue first rest s).2 = s.withFreeCount n := by
      unfold pickDue
      split
      · exact .inl rfl
      · exact .inr ⟨_, rfl⟩
    rcases hpick with h | ⟨n, h⟩
    · simpa only [h] using exec_keepsFinish (pickDue first rest s).1 hgo
    · obtain ⟨t, hexec, hkeeps⟩ := exec_keepsFinish (pickDue first rest s).1 (s := s.withFreeCount n) hgo
      exact ⟨t, by rw [← hexec, ← h], .between (.of_race rfl) hkeeps (sameStandings_refl t)⟩

theorem step_keepsFinish {s : State} (hgo : GoFollowsPhase s) : CompletesKeepingFinish s (step s) := by
  unfold step
  split
  · exact tick_keepsFinish hgo
  · next i rest _ =>
    obtain ⟨t, hexec, hkeeps⟩ := exec_keepsFinish i (s := s.withPending rest) hgo
    exact ⟨t, hexec, .between (.of_race rfl) hkeeps (sameStandings_refl t)⟩

/-- Settles O58: of what the race keeps the step needs that RACING cars stand in RUNNING and CLOSING alone and that the
GO schedule follows the phase. -/
theorem stepKeepsTheFinishOrder : Obligations.StepKeepsTheFinishOrder := by
  rintro s t ⟨-, -, -, -, hgo, -, hracing⟩ hkept hstep
  obtain ⟨u, hu, hkeeps⟩ := step_keepsFinish hgo
  obtain rfl : u = t := Host.Outcome.next.inj (hu.symm.trans hstep)
  obtain ⟨⟨hsound, -⟩, hstay⟩ := hkeeps ⟨hkept, hracing⟩
  exact ⟨hsound, hstay⟩

end Sys2Proof.Machine
end

section
/-! The bytes of each send channel: what a Bulk command, a post and an outcome make of one channel, and of both
(chapter 10, R151 to R157). -/

namespace Sys2Proof.Machine

open Sys2Proof Sys2Proof.Safety

/-! ## One channel -/

/-- A channel is accounted for, and has nothing ready while something of it is outstanding. -/
def ChannelSound (c : SendChannel) : Prop := channelAccounts c ∧ readyAlone c

theorem channelSound_reset : ChannelSound SendChannel.reset := by
  simp [ChannelSound, channelAccounts, readyAlone, SendChannel.reset, outBytes]

/-- A channel that is DONE or FAILED (R155, R156). -/
def stoppedChannel (st : ChannelState) (c : SendChannel) : SendChannel :=
  { c with state := st, abortPending := false, buffer := [], out := none, ready := none }

/-- A channel that leaves ACTIVE has an empty buffer and nothing outstanding or ready (R155, R156, R157). -/
theorem ChannelSound.stopped {c : SendChannel} (h : ChannelSound c) {st : ChannelState} (hst : st ≠ .active) :
    ChannelSound (stoppedChannel st c) := by
  obtain ⟨⟨hremaining, hsupplied, -⟩, -⟩ := h
  exact ⟨⟨hremaining, hsupplied, Nat.zero_le _, fun h => absurd h hst, fun h => absurd h hst⟩, fun _ => rfl⟩

/-- A channel with nothing outstanding may make something ready (R154, R156). -/
theorem ChannelSound.makeReady {c : SendChannel} (h : ChannelSound c) (hout : c.out = none) (order : Nat) :
    ChannelSound { c with ready := some order } := ⟨h.1, fun _ => hout⟩

/-- The bytes of an accepted segment leave those that remain (R155). -/
theorem ChannelSound.accepted {c : SendChannel} (h : ChannelSound c) (hactive : c.state = .active) {n count : Nat}
    (hout : c.out = some (.segment n count)) :
    ChannelSound { c with remaining := c.remaining - count, out := none } := by
  obtain ⟨⟨hremaining, hsupplied, hbuffer, houtstanding, hbytes⟩, -⟩ := h
  have hcount : count ≤ c.remaining := by simpa [hout, outBytes] using houtstanding hactive
  refine ⟨⟨(Nat.sub_le _ _).trans hremaining, hsupplied, hbuffer, fun _ => Nat.zero_le _, fun _ hpending => ?_⟩,
    fun _ => rfl⟩
  have hsum := hbytes hactive hpending
  simp only [hout, outBytes] at hsum ⊢
  omega

/-- A segment posted takes its bytes from the head of the buffer; a BULK ABORT has none (R154, R156). -/
theorem ChannelSound.posted {c : SendChannel} (h : ChannelSound c) (hready : c.ready.isSome = true) :
    ChannelSound (channelPosted c) := by
  obtain ⟨⟨hremaining, hsupplied, hbuffer, houtstanding, hbytes⟩, halone⟩ := h
  have hout : c.out = none := halone hready
  have hsize : segmentSize c ≤ c.remaining ∧ segmentSize c ≤ c.buffer.length := by
    unfold segmentSize
    omega
  unfold channelPosted
  split
  · next hpending =>
    refine ⟨⟨hremaining, hsupplied, hbuffer, fun _ => Nat.zero_le _, fun _ hno => ?_⟩, fun hno => ?_⟩
    · simp [hpending] at hno
    · simp at hno
  · refine ⟨⟨hremaining, hsupplied, ?_, fun _ => hsize.1, fun hactive hpending => ?_⟩, fun hno => ?_⟩
    · simp only [List.length_drop]
      omega
    · have hsum := hbytes hactive hpending
      simp only [hout, outBytes, List.length_drop] at hsum ⊢
      omega
    · simp at hno

theorem channelSound_opened (peer total : Nat) (optEnd optEach : Bool) :
    ChannelSound (openedChannel peer total optEnd optEach) := by
  simp [ChannelSound, channelAccounts, readyAlone, openedChannel, SendChannel.reset, outBytes]

/-- The bytes of a Bulk Data join the buffer, which has room for them, within the length (R153). -/
theorem ChannelSound.supplied {c : SendChannel} (h : ChannelSound c) {bytes : List Byte}
    (hroom : c.buffer.length + bytes.length ≤ 256) (hlength : c.supplied + bytes.length ≤ c.total) :
    ChannelSound (suppliedChannel bytes c) := by
  obtain ⟨⟨hremaining, -, -, houtstanding, hbytes⟩, halone⟩ := h
  refine ⟨⟨hremaining, hlength, ?_, houtstanding, fun hactive hpending => ?_⟩, halone⟩
  · simpa [suppliedChannel] using hroom
  · have hsum := hbytes hactive hpending
    simp only [suppliedChannel, List.length_append] at hsum ⊢
    omega

/-- A channel that Bulk Abort stops (R156). -/
def abortingChannel (c : SendChannel) : SendChannel := { c with abortPending := true, buffer := [], ready := none }

/-- An abort empties the buffer, and its bytes are accounted for no more (R156). -/
theorem ChannelSound.aborting {c : SendChannel} (h : ChannelSound c) :
    ChannelSound (abortingChannel c) := by
  obtain ⟨⟨hremaining, hsupplied, -, houtstanding, -⟩, -⟩ := h
  exact ⟨⟨hremaining, hsupplied, Nat.zero_le _, houtstanding, fun _ hno => absurd hno (by simp [abortingChannel])⟩,
    fun hno => absurd hno (by simp [abortingChannel])⟩

/-! ## Both channels -/

/-- From channels that are accounted for, such channels come about. Every operation that a step is made of keeps
this, and it passes on from one to the next. -/
def ChannelsRunOn (s t : State) : Prop := ChannelsAccount s → ChannelsAccount t

theorem channelsRunOn_refl (s : State) : ChannelsRunOn s s := id

theorem ChannelsRunOn.trans {s t u : State} (hst : ChannelsRunOn s t) (htu : ChannelsRunOn t u) :
    ChannelsRunOn s u := fun hs => htu (hst hs)

/-- An operation that leaves the send channels. -/
theorem ChannelsRunOn.of_send {s t : State} (h : t.bulk.send = s.bulk.send) : ChannelsRunOn s t := by
  intro hs
  rwa [ChannelsAccount, h]

/-- An operation that leaves the bulk unit. -/
theorem ChannelsRunOn.of_bulk {s t : State} (h : t.bulk = s.bulk) : ChannelsRunOn s t := .of_send (by rw [h])

/-- A walk runs on when each of its steps does. -/
theorem ChannelsRunOn.foldl {α : Type} {f : State → α → State} (h : ∀ s a, ChannelsRunOn s (f s a)) (l : List α)
    (s : State) : ChannelsRunOn s (l.foldl f s) := by
  induction l generalizing s with
  | nil => exact channelsRunOn_refl s
  | cons a l ih => exact (h s a).trans (ih (f s a))

/-- A channel that is read is accounted for: it is one of the two, or the reset channel. -/
theorem channelSound_chanAt {s : State} (h : ChannelsAccount s) (ch : Nat) : ChannelSound (chanAt s ch) := by
  unfold chanAt
  rw [List.getD_eq_getElem?_getD]
  cases hget : s.bulk.send[ch - 1]? with
  | none => exact channelSound_reset
  | some c => exact h c (List.mem_of_getElem? hget)

/-- One channel replaced. -/
theorem channelsRunOn_setChan {ch : Nat} {c : SendChannel} {s : State}
    (h : ChannelSound (chanAt s ch) → ChannelSound c) : ChannelsRunOn s (setChan ch c s) := by
  intro hs d hd
  rcases List.mem_or_eq_of_mem_set hd with hmem | rfl
  · exact hs d hmem
  · exact h (channelSound_chanAt hs ch)

theorem makeReady_eq_self {ch : Nat} {s : State} (h : (chanAt s ch).out ≠ none) : makeReady ch s = s := by
  simp [makeReady, segmentReady, abortReady, h]

theorem channelsRunOn_makeReady (ch : Nat) (s : State) : ChannelsRunOn s (makeReady ch s) := by
  by_cases hout : (chanAt s ch).out = none
  · unfold makeReady
    dsimp only
    split
    · exact (channelsRunOn_setChan fun hc => hc.makeReady hout _).trans (.of_bulk rfl)
    · exact channelsRunOn_refl s
  · rw [makeReady_eq_self hout]
    exact channelsRunOn_refl s

theorem failChannel_bulk (ch : Nat) (why : SendFailure) (s : State) :
    (failChannel ch why s).bulk = (setChan ch (stoppedChannel (.failed why) (chanAt s ch)) s).bulk := by
  simp [failChannel, stoppedChannel]

theorem completeChannel_bulk (ch : Nat) (s : State) :
    (completeChannel ch s).bulk = (setChan ch (stoppedChannel .done (chanAt s ch)) s).bulk := by
  simp [completeChannel, stoppedChannel]

theorem channelsRunOn_failChannel (ch : Nat) (why : SendFailure) (s : State) :
    ChannelsRunOn s (failChannel ch why s) :=
  (channelsRunOn_setChan fun hc => hc.stopped (by simp)).trans (.of_bulk (failChannel_bulk ch why s))

theorem channelsRunOn_completeChannel (ch : Nat) (s : State) : ChannelsRunOn s (completeChannel ch s) :=
  (channelsRunOn_setChan fun hc => hc.stopped (by simp)).trans (.of_bulk (completeChannel_bulk ch s))

/-- An accepted segment is the one outstanding (R155). -/
theorem channelsRunOn_segmentAccepted {ch : Nat} {s : State} (hactive : (chanAt s ch).state = .active) {n count : Nat}
    (hout : (chanAt s ch).out = some (.segment n count)) (p : List Byte) :
    ChannelsRunOn s (segmentAccepted ch count p s) := by
  have haccepted := channelsRunOn_setChan (ch := ch) (s := s) fun hc => hc.accepted hactive hout
  unfold segmentAccepted
  dsimp only
  by_cases hdone : (chanAt s ch).remaining - count = 0
  · rw [if_pos hdone]
    exact (haccepted.trans (.of_bulk (by split <;> simp))).trans (channelsRunOn_completeChannel ch _)
  · rw [if_neg hdone]
    exact (haccepted.trans (.of_bulk (by split <;> simp))).trans (channelsRunOn_makeReady ch _)

theorem channelsRunOn_bulkOutcome (ch : Nat) (o : MsgOutcome) (s : State) : ChannelsRunOn s (bulkOutcome ch o s) := by
  unfold bulkOutcome
  dsimp only
  split
  · next hactive =>
    split
    · exact channelsRunOn_refl s
    · exact channelsRunOn_failChannel ch _ s
    · next hout =>
      split
      · exact channelsRunOn_segmentAccepted hactive hout _
      · exact channelsRunOn_failChannel ch _ s
      · exact channelsRunOn_failChannel ch _ s
  · exact channelsRunOn_refl s

theorem channelsRunOn_failActive (why : SendFailure) (s : State) : ChannelsRunOn s (failActive why s) := by
  have hone (ch : Nat) (u : State) : ChannelsRunOn u (failIfActive why ch u) := by
    unfold failIfActive
    split
    · exact channelsRunOn_failChannel ch why u
    · exact channelsRunOn_refl u
  exact (hone 1 s).trans (hone 2 _)

/-! ## Receive entries leave the send channels (R158 to R161) -/

@[simp] theorem setRecv_send (i : Nat) (e : Option ReceiveEntry) (s : State) :
    (setRecv i e s).bulk.send = s.bulk.send := rfl

@[simp] theorem closeRecv_send (i : Nat) (why : ReceiveFailure) (s : State) :
    (closeRecv i why s).bulk.send = s.bulk.send := by
  unfold closeRecv
  split <;> simp

@[simp] theorem closeAllRing_send (s : State) : (closeAllRing s).bulk.send = s.bulk.send :=
  foldl_keeps (fun s => s.bulk.send) (fun s i => closeRecv_send i .ring s) _ s

@[simp] theorem takeSegment_send (i : Nat) (e : ReceiveEntry) (data : List Byte) (endMark : Bool) (s : State) :
    (takeSegment i e data endMark s).1.bulk.send = s.bulk.send := by
  unfold takeSegment
  dsimp only
  split <;> simp

@[simp] theorem closeRestarted_send (i : Nat) (e : ReceiveEntry) (seg : Report) (s : State) :
    (closeRestarted i e seg s).bulk.send = s.bulk.send := by
  unfold closeRestarted
  split <;> simp

@[simp] theorem openSegment_send (source channel total : Nat) (data : List Byte) (endMark : Bool) (s : State) :
    (openSegment source channel total data endMark s).1.bulk.send = s.bulk.send := by
  unfold openSegment
  split
  · rfl
  · split
    · rfl
    · dsimp only
      split <;> simp

@[simp] theorem segmentAt_send (source : Nat) (p : List Byte) (s : State) :
    (segmentAt source p s).1.bulk.send = s.bulk.send := by
  unfold segmentAt
  dsimp only
  (repeat' split) <;> simp

@[simp] theorem abortAt_send (source : Nat) (p : List Byte) (s : State) :
    (abortAt source p s).1.bulk.send = s.bulk.send := by
  unfold abortAt
  split
  · rfl
  · split <;> simp

@[simp] theorem serveSlot_send (m : SlotMsg) (s : State) : (serveSlot m s).1.bulk.send = s.bulk.send := by
  unfold serveSlot fromAnchor
  (repeat' split) <;> simp

end Sys2Proof.Machine
end

section
/-! The slot engine: what posts and outcomes make of the send channels (chapters 04 and 10, R61 to R75, R154 to R157). -/

namespace Sys2Proof.Machine

open Sys2Proof Sys2Proof.Safety

/-! ## Posts (R61 to R63, R154) -/

theorem mem_of_earliest {l : List (Nat × Candidate)} {c : Nat × Candidate} (h : earliest l = some c) : c ∈ l := by
  induction l generalizing c with
  | nil => cases h
  | cons a l ih =>
    cases hrest : earliest l with
    | none =>
      obtain rfl : a = c := by simpa [earliest, hrest] using h
      exact List.mem_cons_self
    | some d =>
      have hmem := ih hrest
      simp only [earliest, hrest] at h
      split at h <;> cases h
      · exact List.mem_cons_of_mem _ hmem
      · exact List.mem_cons_self

/-- The normal candidate is one of the normal-class choices (R61). -/
theorem mem_of_normalCandidate {s : State} {c : Nat × Candidate} (h : normalCandidate s = some c) :
    c ∈ normalChoices s := by
  unfold normalCandidate at h
  split at h
  · exact mem_of_earliest h
  · exact List.mem_of_head? h

/-- A channel is a choice only by what it has ready (R61, R154). -/
theorem ready_of_mem_normalChoices {s : State} {order ch : Nat} (h : (order, Candidate.channel ch) ∈ normalChoices s) :
    (chanAt s ch).ready = some order := by
  have hready {n : Nat} (h : (order, Candidate.channel ch) ∈ readyChoice s n) : (chanAt s ch).ready = some order := by
    unfold readyChoice at h
    split at h
    · cases h
    · simp_all
  unfold normalChoices at h
  rw [List.mem_append, List.mem_append] at h
  obtain (h | h) | h := h
  · exact hready h
  · exact hready h
  · split at h <;> simp at h

/-- A channel posts only what it has ready (R61, R62). -/
theorem ready_of_choose {s : State} {free : Bool} {ch : Nat} (h : choose s free = some (.channel ch)) :
    (chanAt s ch).ready.isSome = true := by
  have hnormal (h : normalChoice s free = some (.channel ch)) : (chanAt s ch).ready.isSome = true := by
    unfold normalChoice at h
    split at h
    · obtain ⟨⟨order, c⟩, hcandidate, rfl⟩ := Option.map_eq_some_iff.1 h
      simp [ready_of_mem_normalChoices (mem_of_normalCandidate hcandidate)]
    · cases h
  have hurgent : urgentChoice s ≠ some (.channel ch) := by
    unfold urgentChoice
    split <;> simp
  unfold choose at h
  split at h
  · split at h
    · exact absurd h hurgent
    · exact hnormal h
  · split at h
    · next hchoice =>
      split at h
      · exact hnormal h
      · exact absurd (hchoice.trans h) hurgent
    · exact hnormal h

theorem channelsRunOn_postStep (free : Bool) (place : Nat) (slot : Slot) (p : SlotPass) (s : State) :
    ChannelsRunOn s (postStep free place slot p s).2.2 := by
  unfold postStep
  split
  · exact channelsRunOn_refl s
  · dsimp only
    split
    · exact channelsRunOn_refl s
    · split
      · exact channelsRunOn_refl s
      · next c hchosen =>
        cases c with
        | queued m => exact .of_bulk rfl
        | channel ch => exact (channelsRunOn_setChan fun hc => hc.posted (ready_of_choose hchosen)).trans (.of_bulk rfl)

@[simp] theorem copyOwnPost_bulk (before after : Slot) (s : State) : (copyOwnPost before after s).bulk = s.bulk := by
  unfold copyOwnPost
  split
  · split <;> simp
  · rfl

theorem channelsRunOn_anchorSlots (free : Bool) (i : Nat) (l : List Slot) (p : SlotPass) (s : State) :
    ChannelsRunOn s (anchorSlots free i l p s).2 := by
  induction l generalizing i p s with
  | nil => exact channelsRunOn_refl s
  | cons slot rest ih =>
    exact (channelsRunOn_postStep free i slot p s).trans (.trans (.of_bulk (by simp)) (ih _ _ _))

/-! ## Outcomes at the source (R73 to R75) -/

theorem channelsRunOn_settleEntry (o : Outstanding) (out : MsgOutcome) (s : State) :
    ChannelsRunOn s (settleEntry o out s) := by
  unfold settleEntry
  split
  · exact .of_bulk (by simp)
  · exact .of_bulk (by simp)
  · exact .of_bulk (by simp)
  · split
    · exact channelsRunOn_refl s
    · exact channelsRunOn_bulkOutcome _ out s
  · split
    · exact channelsRunOn_refl s
    · exact channelsRunOn_bulkOutcome _ out s
  · exact .of_bulk (by simp)
  · exact .of_bulk (by simp)
  · exact .of_bulk (by simp)
  · exact .of_bulk (by simp)

theorem channelsRunOn_endEntry (o : Outstanding) (out : MsgOutcome) (s : State) :
    ChannelsRunOn s (endEntry o out s) := by
  unfold endEntry
  exact .trans (.of_bulk (by simp)) (channelsRunOn_settleEntry o out _)

theorem channelsRunOn_takeOutcome (place : Nat) (m : SlotMsg) (out : MsgOutcome) (s : State) :
    ChannelsRunOn s (takeOutcome place m out s) := by
  unfold takeOutcome
  split
  · exact channelsRunOn_refl s
  · exact channelsRunOn_endEntry _ out s

theorem channelsRunOn_takeAnswer (place : Nat) (m : SlotMsg) (s : State) : ChannelsRunOn s (takeAnswer place m s) := by
  unfold takeAnswer
  split
  · exact channelsRunOn_refl s
  · exact .trans (.of_bulk (by simp)) (channelsRunOn_endEntry _ _ _)

theorem channelsRunOn_endLost (p : Outstanding → Bool) (s : State) : ChannelsRunOn s (endLost p s) :=
  .foldl (fun s o => channelsRunOn_endEntry o .lost s) _ s

theorem channelsRunOn_endWaitedOut (s : State) : ChannelsRunOn s (endWaitedOut s) := channelsRunOn_endLost waitedOut s

theorem channelsRunOn_ringLoss (s : State) : ChannelsRunOn s (ringLoss s) := by
  have hlost := channelsRunOn_endLost (fun o => o.progress == .waiting) s
  unfold ringLoss
  exact hlost.trans (.trans (.of_bulk (by simp)) (.foldl (fun u m => .of_bulk (by simp)) _ _))

/-! ## Slots at a node and at the anchor (R68, R71) -/

theorem channelsRunOn_nodeSlot (place : Nat) (m : SlotMsg) (s : State) : ChannelsRunOn s (nodeSlot place m s).2 := by
  have hserve := serveSlot_send m s
  unfold nodeSlot
  split_ifs
  · exact channelsRunOn_takeAnswer place m s
  · exact channelsRunOn_refl s
  · exact channelsRunOn_takeOutcome place m _ s
  · exact channelsRunOn_refl s
  · split
    · next heq => exact .of_send (by simpa [heq] using hserve)
    · next heq => exact .of_send (by simpa [heq] using hserve)
  · exact .of_bulk (by simp)
  · exact channelsRunOn_refl s
  · exact .of_bulk rfl
  · exact channelsRunOn_refl s

theorem anchorServe_send (place : Nat) (m : SlotMsg) (s : State) :
    (anchorServe place m s).1.bulk.send = s.bulk.send := by
  have hserve := serveSlot_send m s
  unfold anchorServe
  split
  · split <;> simp
  · simp
  · split
    · next heq => simpa [heq] using hserve
    · next heq => simpa [heq] using hserve

theorem channelsRunOn_relayPosted (place : Nat) (m : SlotMsg) (s : State) :
    ChannelsRunOn s (relayPosted place m s).2 := by
  unfold relayPosted
  split_ifs
  · exact .of_bulk (by simp)
  · exact .of_bulk (by simp)
  · exact .of_bulk (by simp)
  · exact .of_bulk (by simp)
  · exact channelsRunOn_refl s
  · exact channelsRunOn_takeOutcome place m _ s
  · exact .of_bulk (by simp)

theorem channelsRunOn_relayAnswered (place : Nat) (m : SlotMsg) (s : State) :
    ChannelsRunOn s (relayAnswered place m s).2 := by
  unfold relayAnswered
  split_ifs
  · exact channelsRunOn_takeAnswer place m s
  · exact channelsRunOn_refl s
  · exact channelsRunOn_refl s
  · exact .of_bulk (by simp)

theorem channelsRunOn_relaySlot (place : Nat) (syms : List RxSym) (s : State) :
    ChannelsRunOn s (relaySlot place syms s).2 := by
  unfold relaySlot
  split
  · exact .of_bulk (by simp)
  · exact channelsRunOn_refl s
  · next m _ =>
    split_ifs
    · exact channelsRunOn_relayAnswered place m s
    · exact .of_bulk (by simp)
    · have hserve := ChannelsRunOn.of_send (anchorServe_send place m s)
      split
      · next heq => exact (heq ▸ hserve).trans (.of_bulk (by simp))
      · next heq => exact (heq ▸ hserve).trans (.of_bulk (by simp))
      · next heq => exact (heq ▸ hserve).trans (channelsRunOn_relayPosted place _ _)
    · exact channelsRunOn_relayPosted place m s

theorem channelsRunOn_relaySlots (syms : List RxSym) (i n : Nat) (s : State) :
    ChannelsRunOn s (relaySlots syms i n s).2 := by
  induction n generalizing i s with
  | zero => exact channelsRunOn_refl s
  | succ n ih => exact (channelsRunOn_relaySlot i _ s).trans (ih _ _)

theorem channelsRunOn_passSlot (free : Bool) (syms : List RxSym) (i : Nat) (p : SlotPass) (s : State) :
    ChannelsRunOn s (passSlot free syms i p s).2.2 := by
  unfold passSlot
  dsimp only
  split
  · exact channelsRunOn_refl s
  · next slot _ =>
    cases slot with
    | none => exact channelsRunOn_postStep free i none p s
    | some m => exact (channelsRunOn_nodeSlot i m s).trans (channelsRunOn_postStep free i _ p _)

theorem channelsRunOn_passSlots (free : Bool) (syms : List RxSym) (i n : Nat) (p : SlotPass) (s : State) :
    ChannelsRunOn s (passSlots free syms i n p s).2.2 := by
  induction n generalizing i p s with
  | zero => exact channelsRunOn_refl s
  | succ n ih => exact (channelsRunOn_passSlot free syms i p s).trans (ih _ _ _)

end Sys2Proof.Machine
end

section
/-! What the frames, the boundaries and the loss of the ring make of the send channels (chapters 01, 02 and 03, R10,
R13 to R17, R24 to R34, R75, R157). -/

namespace Sys2Proof.Machine

open Sys2Proof Sys2Proof.Safety

/-! ## A frame at a node (R6, R28) -/

@[simp] theorem takeHeader_bulk (t : RingTest) (h : Header) (s : State) : (takeHeader t h s).bulk = s.bulk := by
  unfold takeHeader becomeMapped becomeUnmapped
  dsimp only
  split
  · split <;> simp
  · split <;> simp
  · split <;> simp

@[simp] theorem raceFromHeader_bulk (h : Header) (target : Nat) (s : State) :
    (raceFromHeader h target s).bulk = s.bulk := by
  unfold raceFromHeader raceOnCountdown raceOnRunning raceOnResults
  split
  · rfl
  · rfl
  · split
    · rfl
    · split <;> simp
    · rfl
  · split <;> simp
  · split <;> simp
  · split <;> rfl

@[simp] theorem timeFromHeader_bulk (t : RingTest) (h : Header) (slow : Bool) (s : State) :
    (timeFromHeader t h slow s).bulk = s.bulk := by
  cases t <;> simp [timeFromHeader]

@[simp] theorem headerWork_bulk (t : RingTest) (h : Header) (slow : Bool) (s : State) :
    (headerWork t h slow s).bulk = s.bulk := by
  unfold headerWork placingFromHeader phaseFromHeader
  dsimp only
  split_ifs <;> simp

@[simp] theorem passBlock_bulk (h : Header) (syms : List RxSym) (c : Nat) (s : State) :
    (passBlock h syms c s).2.bulk = s.bulk := by
  unfold passBlock
  dsimp only
  split <;> simp

@[simp] theorem passBlocks_bulk (h : Header) (syms : List RxSym) (c n : Nat) (s : State) :
    (passBlocks h syms c n s).2.bulk = s.bulk := by
  induction n generalizing c s with
  | zero => rfl
  | succ n ih => exact (ih _ _).trans (passBlock_bulk h syms c s)

theorem channelsRunOn_passMapped (h : Header) (syms : List RxSym) (s : State) :
    ChannelsRunOn s (passMapped h syms s).2 := by
  unfold passMapped
  dsimp only
  exact .trans (.of_bulk (by simp)) ((channelsRunOn_passSlots _ syms 0 6 _ _).trans (.of_bulk rfl))

theorem channelsRunOn_nodeCycle (slow : Bool) (syms : List RxSym) (s : State) :
    ChannelsRunOn s (nodeCycle slow syms s).2 := by
  unfold nodeCycle
  split
  · exact channelsRunOn_refl s
  · next h _ =>
    dsimp only
    have hheader (t : RingTest) : ChannelsRunOn s (headerWork t h slow (endWaitedOut s)) :=
      (channelsRunOn_endWaitedOut s).trans (.of_bulk (by simp))
    split
    · exact (hheader _).trans (.of_bulk rfl)
    · exact (hheader _).trans (channelsRunOn_passMapped h syms _)

@[simp] theorem nodeCollect_bulk (ended : Bool) (syms : List RxSym) (s : State) :
    (nodeCollect ended syms s).2.bulk = s.bulk := by
  obtain ⟨-, e⟩ | ⟨h, b, -, -, ⟨-, e⟩ | ⟨-, -, e⟩ | ⟨-, -, e⟩⟩ := nodeCollect_cases ended syms s
  · simp [e]
  · simp [e]
  · simp [e, recordSurveyed]
  · simp [e]

theorem channelsRunOn_nodeTake (k : FrameKind) (ended slow : Bool) (syms : List RxSym) (s : State) :
    ChannelsRunOn s (nodeTake k ended slow syms s) := by
  cases k with
  | cycle => exact (channelsRunOn_nodeCycle slow syms s).trans (.of_bulk (by simp [nodeTake, forwarded]))
  | collect => exact .of_bulk (by simp [nodeTake, forwarded])

/-! ## The loss of the ring, and DEFERRED (R10, R16, R17, R157) -/

theorem channelsRunOn_enterLost (s : State) : ChannelsRunOn s (enterLost s) := by
  have hlost : ChannelsRunOn s (ringLoss (setRing .lost s)) := .trans (.of_bulk (by simp)) (channelsRunOn_ringLoss _)
  exact hlost.trans (.of_send (by simp [enterLost]))

theorem channelsRunOn_silenceExpires (s : State) : ChannelsRunOn s (silenceExpires s) := by
  unfold silenceExpires
  split
  · exact channelsRunOn_enterLost s
  · exact .of_bulk (by simp [returnListening])
  · exact channelsRunOn_refl s

/-- The station leaves the ring with its ACTIVE channels failed, its posts LOST and its receive entries closed (R75,
R157, R161). -/
theorem channelsRunOn_leaveRing (why : SendFailure) (s : State) :
    ChannelsRunOn s (closeAllRing (ringLoss (failActive why s))) :=
  (channelsRunOn_failActive why s).trans ((channelsRunOn_ringLoss _).trans (.of_send (by simp)))

theorem channelsRunOn_enterDeferred (serial : Serial) (frames : List OutFrame) (s : State) :
    ChannelsRunOn s (enterDeferred serial frames s) := by
  let u := queueRing (.anchorConflict serial) (sendFrames frames (setRing .deferred s))
  have hleft : ChannelsRunOn s (closeAllRing (ringLoss (failActive .deferred u))) :=
    .trans (.of_bulk (by simp [u])) (channelsRunOn_leaveRing .deferred u)
  exact hleft.trans (.of_bulk (by simp [enterDeferred, u]))

theorem channelsRunOn_foreignTaken (k : FrameKind) (syms : List RxSym) (serial : Serial) (sent : Option Nat)
    (s : State) : ChannelsRunOn s (foreignTaken k syms serial sent s) := by
  unfold foreignTaken
  split
  · exact channelsRunOn_enterDeferred serial _ s
  · exact channelsRunOn_refl s

theorem channelsRunOn_foreignJudged (k : FrameKind) (f : RxFrame) (sent : Option Nat) (s : State) :
    ChannelsRunOn s (foreignJudged k f sent s) := by
  unfold foreignJudged
  split
  · exact channelsRunOn_refl s
  · split
    · exact channelsRunOn_foreignTaken k _ _ sent s
    · exact channelsRunOn_refl s

theorem deferredForward_bulk (k : FrameKind) (syms : List RxSym) (s : State) :
    (deferredForward k syms s).bulk = s.bulk := by
  simp [deferredForward]

/-! ## A return at the anchor (R14, R26, R139) -/

@[simp] theorem takeRoll_bulk (field : Half) (s : State) : (takeRoll field s).bulk = s.bulk := by
  unfold takeRoll
  dsimp only
  split <;> simp

@[simp] theorem takeAttention_bulk (field : Half) (s : State) : (takeAttention field s).bulk = s.bulk := by
  unfold takeAttention
  dsimp only
  split <;> simp

@[simp] theorem takeBlocks_bulk (l : List CarSummary) (syms : List RxSym) (s : State) :
    (takeBlocks l syms s).bulk = s.bulk :=
  foldl_keeps State.bulk (fun s c => by simp) _ _

@[simp] theorem readBlocks_bulk (syms : List RxSym) (s : State) : (readBlocks syms s).bulk = s.bulk :=
  foldl_keeps State.bulk (fun s c => by simp) _ _

@[simp] theorem blocksTaken_bulk (h : Header) (syms : List RxSym) (s : State) :
    (blocksTaken h syms s).bulk = s.bulk := by
  unfold blocksTaken
  dsimp only
  split <;> simp

theorem channelsRunOn_handReturn (h : Header) (syms : List RxSym) (s : State) :
    ChannelsRunOn s (handReturn h syms s) := by
  rw [handReturn_eq]
  exact (ChannelsRunOn.of_bulk (blocksTaken_bulk h syms s)).trans
    ((channelsRunOn_relaySlots syms 0 6 _).trans (.of_bulk rfl))

@[simp] theorem startSurvey_bulk (s : State) : (startSurvey s).bulk = s.bulk := by
  simp [startSurvey, beginSurvey]

theorem channelsRunOn_validReturn (h : Header) (syms : List RxSym) (s : State) :
    ChannelsRunOn s (validReturn h syms s) := by
  refine (channelsRunOn_handReturn h syms s).trans (.of_bulk ?_)
  unfold validReturn noteNewcomer
  dsimp only
  split_ifs <;> simp

theorem channelsRunOn_anchorCycle (f : RxFrame) (s : State) : ChannelsRunOn s (anchorCycle f s) := by
  unfold anchorCycle
  split
  · exact channelsRunOn_refl s
  · split_ifs
    · exact channelsRunOn_refl s
    · exact channelsRunOn_foreignTaken _ _ _ _ s
    · exact channelsRunOn_validReturn _ _ s
    · exact channelsRunOn_refl s

/-! ## Surveys (R24 to R34) -/

@[simp] theorem enterCycling_bulk (s : State) : (enterCycling s).bulk = s.bulk := by
  simp [enterCycling]

@[simp] theorem failSurvey_bulk (r : SurveyRun) (why : SurveyFailure) (shared : Option (Nat × Serial × Serial))
    (s : State) : (failSurvey r why shared s).bulk = s.bulk := by
  simp [failSurvey]

@[simp] theorem endAttempt_bulk (r : SurveyRun) (why : SurveyFailure) (s : State) :
    (endAttempt r why s).bulk = s.bulk := by
  unfold endAttempt
  split <;> simp

@[simp] theorem missingCar_bulk (m : RingMap) (s : State) (c : Nat) : (missingCar m s c).bulk = s.bulk := by
  unfold missingCar
  dsimp only
  split
  · split <;> simp
  · rfl

@[simp] theorem applyMissing_bulk (m : RingMap) (s : State) : (applyMissing m s).bulk = s.bulk := by
  unfold applyMissing
  split
  · rfl
  · exact foldl_keeps State.bulk (fun s c => missingCar_bulk m s c) _ _

@[simp] theorem succeedSurvey_bulk (r : SurveyRun) (entries : List CollectEntry) (trip : Nat) (s : State) :
    (succeedSurvey r entries trip s).bulk = s.bulk := by
  simp [succeedSurvey, clearFault]

@[simp] theorem judgePass_bulk (r : SurveyRun) (overflow : Bool) (entries : List CollectEntry) (trip : Nat)
    (s : State) : (judgePass r overflow entries trip s).bulk = s.bulk := by
  unfold judgePass judgeSecond
  dsimp only
  split
  · simp
  · split
    · simp
    · split
      · rfl
      · split
        · simp
        · split_ifs <;> simp

theorem channelsRunOn_anchorCollect (f : RxFrame) (trip : Nat) (s : State) :
    ChannelsRunOn s (anchorCollect f trip s) := by
  unfold anchorCollect
  split
  · exact channelsRunOn_refl s
  · split
    · split
      · exact channelsRunOn_refl s
      · exact channelsRunOn_foreignTaken _ _ _ _ s
    · split
      · split
        · exact .of_bulk (by simp)
        · exact channelsRunOn_refl s
      · exact channelsRunOn_refl s

/-! ## Boundaries (R13 to R15) -/

@[simp] theorem missReturn_bulk (s : State) : (missReturn s).bulk = s.bulk := by
  simp [missReturn]

@[simp] theorem enterStalled_bulk (s : State) : (enterStalled s).bulk = s.bulk := by
  unfold enterStalled
  dsimp only
  split <;> simp

@[simp] theorem countMissed_bulk (s : State) : (countMissed s).bulk = s.bulk := by
  unfold countMissed
  split_ifs <;> simp

@[simp] theorem placeBoundary_bulk (s : State) : (placeBoundary s).bulk = s.bulk := rfl

@[simp] theorem emitPass_bulk (s : State) : (emitPass s).bulk = s.bulk := by
  unfold emitPass
  split <;> simp

/-- The state from which the slots of a cycle frame are formed (R13, R64). -/
def slotsBegin (s : State) : State :=
  let s1 := anchorMirrors (endWaitedOut s)
  s1.withSlots (freshBudgets (postingNow s1) (emitClaim s1))

@[simp] theorem slotsBegin_bulk (s : State) : (slotsBegin s).bulk = (endWaitedOut s).bulk := by
  simp [slotsBegin, anchorMirrors]

/-- Behind its slots an emission leaves the bulk unit. -/
theorem emitCycle_bulk (s : State) :
    (emitCycle s).bulk =
      (anchorSlots (claimFree (slotsBegin s).slots.claimEmitted 0) 0 (slotsBegin s).slots.nextSlots
        (SlotPass.start (slotsBegin s)) (slotsBegin s)).2.bulk := by
  simp only [emitCycle, slotsBegin, placeBoundary_bulk, sendFrames_leaves, State.withCyc_bulk, State.withSlots_bulk]

theorem channelsRunOn_emitCycle (s : State) : ChannelsRunOn s (emitCycle s) := by
  have hslots := channelsRunOn_anchorSlots (claimFree (slotsBegin s).slots.claimEmitted 0) 0
    (slotsBegin s).slots.nextSlots (SlotPass.start (slotsBegin s)) (slotsBegin s)
  exact (channelsRunOn_endWaitedOut s).trans
    ((ChannelsRunOn.of_bulk (slotsBegin_bulk s)).trans (hslots.trans (.of_bulk (emitCycle_bulk s))))

theorem channelsRunOn_surveyBoundary (s : State) : ChannelsRunOn s (surveyBoundary s) := by
  unfold surveyBoundary dropAwaited
  split
  · exact channelsRunOn_refl s
  · dsimp only
    split
    · split
      · exact .of_bulk (by simp)
      · exact .trans (.of_bulk (by simp)) (channelsRunOn_emitCycle _)
    · exact .of_bulk (by split <;> simp)

theorem channelsRunOn_atBoundary (s : State) : ChannelsRunOn s (atBoundary s) := by
  unfold atBoundary
  split
  · exact channelsRunOn_surveyBoundary s
  · exact .trans (.of_bulk (countMissed_bulk s)) (channelsRunOn_emitCycle _)
  · exact .trans (.of_bulk (countMissed_bulk s)) (channelsRunOn_emitCycle _)
  · exact channelsRunOn_refl s

/-! ## Frames as they are heard (R2, R4) -/

theorem channelsRunOn_takeCut (k : FrameKind) (slow : Bool) (syms : List RxSym) (sent : Option Nat) (s : State) :
    ChannelsRunOn s (takeCut k slow syms sent s) := by
  unfold takeCut
  split_ifs
  · exact channelsRunOn_nodeTake k false slow syms s
  · exact .of_bulk (deferredForward_bulk k syms s)
  · split
    · exact channelsRunOn_refl s
    · split
      · exact channelsRunOn_foreignTaken k syms _ sent s
      · exact channelsRunOn_refl s
  · exact channelsRunOn_refl s

theorem channelsRunOn_cutFrame (cut : Option CutFrame) (s : State) : ChannelsRunOn s (cutFrame cut s) := by
  cases cut with
  | none => exact channelsRunOn_refl s
  | some c =>
    exact (ChannelsRunOn.of_bulk (t := (freeValue s).2) rfl).trans (channelsRunOn_takeCut c.kind _ c.symbols c.sent _)

theorem channelsRunOn_hearCut (c : CutFrame) (s : State) : ChannelsRunOn s (hearCut c s) := by
  unfold hearCut
  split
  · split
    · exact (channelsRunOn_cutFrame (some c) s).trans (.of_bulk rfl)
    · next cut _ => exact (channelsRunOn_cutFrame (some { c with symbols := cut }) s).trans (.of_bulk (by simp))
  · exact .of_bulk (by simp)

/-- A frame heard runs on when its taking does. -/
theorem channelsRunOn_hearFrame {take : State → State} (h : ∀ u, ChannelsRunOn u (take u)) (k : FrameKind)
    (f : RxFrame) (sent : Option Nat) (s : State) : ChannelsRunOn s (hearFrame k f sent take s) := by
  unfold hearFrame
  split
  · split
    · exact .trans (.of_bulk (by simp)) (h _)
    · next cut _ => exact (channelsRunOn_takeCut k f.slowHeader cut sent s).trans (.of_bulk (by simp))
  · exact .of_bulk (by simp)

theorem channelsRunOn_anchorFrame {take : State → State} (h : ∀ u, ChannelsRunOn u (take u)) (k : FrameKind)
    (f : RxFrame) (sent : Option Nat) (s : State) : ChannelsRunOn s (anchorFrame k f sent take s) := by
  have hhears (u : State) : ChannelsRunOn u (anchorHears k f sent take u) := by
    refine channelsRunOn_hearFrame (fun v => ?_) k f sent u
    split_ifs
    · exact .of_bulk (deferredForward_bulk k _ v)
    · exact h v
    · exact channelsRunOn_refl v
  unfold anchorFrame
  split_ifs
  · split
    · exact channelsRunOn_refl s
    · next l _ =>
      split
      · exact (ChannelsRunOn.of_send (t := comeRound l s) rfl).trans (hhears _)
      · exact channelsRunOn_refl s
  · exact hhears s
  · exact channelsRunOn_refl s

theorem channelsRunOn_nodeFrame (k : FrameKind) (f : RxFrame) (s : State) : ChannelsRunOn s (nodeFrame k f s) := by
  unfold nodeFrame
  split
  · exact channelsRunOn_refl s
  · refine channelsRunOn_hearFrame (fun u => ?_) k f none s
    split
    · exact channelsRunOn_nodeTake k _ _ _ u
    · exact channelsRunOn_refl u

end Sys2Proof.Machine
end

section
/-! Every step keeps the bytes of each send channel accounted for: each command and event lets the channels run on
(chapter 10, R151 to R157, R170, R179). -/

namespace Sys2Proof.Machine

open Sys2Proof Sys2Proof.Safety

/-- A command or event completes, and the send channels run on. -/
def CompletesRunningOn (s : State) (o : Host.Outcome State Fault Refusal) : Prop :=
  ∃ t, o = .next t ∧ ChannelsRunOn s t

theorem ChannelsRunOn.completes {s t : State} (h : ChannelsRunOn s t) : CompletesRunningOn s (.next t) := ⟨t, rfl, h⟩

theorem CompletesRunningOn.of_bulk {s t : State} (h : t.bulk = s.bulk) : CompletesRunningOn s (.next t) :=
  (ChannelsRunOn.of_bulk h).completes

/-! ## Commands of the cabinet port and timed events -/

/-- A command of the cabinet port lets the channels run on when what it does behind its tests does. -/
theorem runsOn_takeCommand (k : Cmd) {tests : State → List (Bool × RefusalReason)}
    {act : State → State → State × ReplyBody}
    (h : ∀ u, firstRefusal (tests u) = none → ChannelsRunOn u (act u u).1) (s : State) :
    CompletesRunningOn s (.next (takeCommand k (fun s => tested (tests s) (act s) s) s)) := by
  refine ChannelsRunOn.completes ?_
  unfold takeCommand
  split
  · have htested : ChannelsRunOn (dropFrame s) (tested (tests (dropFrame s)) (act (dropFrame s)) (dropFrame s)).1 := by
      unfold tested
      split
      · exact channelsRunOn_refl _
      · next hpassed => exact h _ hpassed
    exact (ChannelsRunOn.of_bulk (t := dropFrame s) (by simp)).trans (htested.trans (.of_bulk (by simp)))
  · exact channelsRunOn_refl s

/-- A command of the cabinet port that leaves the bulk unit. -/
theorem runsOn_command (k : Cmd) {tests : State → List (Bool × RefusalReason)}
    {act : State → State → State × ReplyBody} (h : ∀ u, (act u u).1.bulk = u.bulk) (s : State) :
    CompletesRunningOn s (.next (takeCommand k (fun s => tested (tests s) (act s) s) s)) :=
  runsOn_takeCommand k (fun u _ => .of_bulk (h u)) s

/-- A timed event lets the channels run on when its effect does. -/
theorem runsOn_atInstant {remaining : Option Nat} {act : State → State} (h : ∀ u, ChannelsRunOn u (act u))
    (s : State) : CompletesRunningOn s (.next (atInstant remaining act s)) := by
  refine ChannelsRunOn.completes ?_
  obtain ⟨-, e⟩ | ⟨d, -, e⟩ := atInstant_cases remaining act s
  · rw [e]
    exact channelsRunOn_refl s
  · rw [e]
    exact (ChannelsRunOn.of_send (elapse_send d s)).trans (h _)

/-! ## The bulk commands (R152, R153, R156) -/

theorem channelsRunOn_open (ch peer total : Nat) (optEnd optEach : Bool) (s : State) :
    ChannelsRunOn s (setChan ch (openedChannel peer total optEnd optEach) s) :=
  channelsRunOn_setChan fun _ => channelSound_opened peer total optEnd optEach

/-- Bulk Data that has passed its tests has room in the buffer and lies within the length (R153). -/
theorem room_of_dataTests {fits : Bool} {ch : Nat} {bytes : List Byte} {s : State}
    (h : firstRefusal (dataTests fits ch bytes s) = none) :
    (chanAt s ch).buffer.length + bytes.length ≤ 256 ∧
      (chanAt s ch).supplied + bytes.length ≤ (chanAt s ch).total := by
  unfold dataTests at h
  rw [firstRefusal_append, Option.or_eq_none_iff] at h
  obtain ⟨-, h⟩ := h
  simp only [firstRefusal_cons] at h
  split_ifs at h with hknown hactive hroom hlength
  exact ⟨of_decide_eq_true hroom, of_decide_eq_true hlength⟩

theorem channelsRunOn_dataAct {ch : Nat} {bytes : List Byte} {s : State}
    (hroom : (chanAt s ch).buffer.length + bytes.length ≤ 256)
    (hlength : (chanAt s ch).supplied + bytes.length ≤ (chanAt s ch).total) :
    ChannelsRunOn s (dataAct ch bytes s).1 :=
  (channelsRunOn_setChan fun hc => hc.supplied hroom hlength).trans (channelsRunOn_makeReady ch _)

theorem channelsRunOn_abortAct (ch : Nat) (s : State) : ChannelsRunOn s (abortAct ch s) := by
  unfold abortAct
  dsimp only
  split
  · split
    · exact channelsRunOn_failChannel ch .aborted s
    · exact (channelsRunOn_setChan fun hc => hc.aborting).trans (channelsRunOn_makeReady ch _)
  · exact channelsRunOn_refl s

/-! ## The station's own commands (R20 to R22, R169, R170) -/

@[simp] theorem enterListening_bulk (s : State) : (enterListening s).bulk = s.bulk := by
  simp [enterListening]

@[simp] theorem beginAnchor_bulk (s : State) : (beginAnchor s).bulk = s.bulk := by
  unfold beginAnchor turnToLoop
  dsimp only
  split_ifs <;> simp

theorem configureAct_bulk (address role seats : Nat) (title revision : Half) (s : State) :
    (configureAct address role seats title revision s).1.bulk = s.bulk := by
  unfold configureAct done
  dsimp only
  split <;> simp

/-- Both channels after power reset and Restart (R151). -/
theorem channelsAccount_of_reset {s : State} (h : s.bulk = BulkUnit.reset) : ChannelsAccount s := by
  intro c hc
  rw [h] at hc
  obtain rfl : c = SendChannel.reset := by simpa [BulkUnit.reset] using hc
  exact channelSound_reset

theorem channelsRunOn_enterStandby (s : State) : ChannelsRunOn s (enterStandby s) := by
  have hleft := channelsRunOn_leaveRing .standby (setRing .standby (s.withCyc { s.cyc with silence := none }))
  exact (ChannelsRunOn.of_bulk (by simp)).trans (hleft.trans (.of_bulk (by simp [enterStandby])))

theorem channelsRunOn_standbyCut (cut : Option CutFrame) (s : State) : ChannelsRunOn s (standbyCut cut s) := by
  cases cut with
  | none => exact channelsRunOn_refl s
  | some c => exact channelsRunOn_hearCut c s

theorem channelsRunOn_standby (cut : Option CutFrame) (s : State) :
    ChannelsRunOn s (if s.cyc.ring = .standby then s else enterStandby (standbyCut cut s)) := by
  split
  · exact channelsRunOn_refl s
  · exact (channelsRunOn_standbyCut cut s).trans (channelsRunOn_enterStandby _)

theorem statusAct_bulk (part : StatusPart) (s : State) : (statusAct part s).1.bulk = s.bulk := by
  unfold statusAct
  split <;> rfl

/-! ## Race, seat and table commands -/

theorem emptyRace_bulk (ev : PhaseEvent) (s : State) : (emptyRace ev s).bulk = s.bulk := by
  unfold emptyRace
  dsimp only
  split <;> simp

theorem admitAct_bulk (choice : CarChoice) (s : State) : (admitAct choice s).1.bulk = s.bulk := by
  unfold admitAct
  split <;> simp

theorem joinAct_bulk (seat : Nat) (tag : List Byte) (s : State) : (joinAct seat tag s).1.bulk = s.bulk := by
  unfold joinAct
  dsimp only
  split <;> simp [postUrgent]

theorem leaveAct_bulk (seat : Nat) (s : State) : (leaveAct seat s).1.bulk = s.bulk := by
  unfold leaveAct
  split <;> simp [postUrgent]

theorem runsOn_localWrite (fits : Bool) (table : TableName) (start : Nat) (values : List Nat) (s : State) :
    CompletesRunningOn s (.next (takeCommand .tableWrite (localWrite fits table start values) s)) := by
  cases table <;> exact runsOn_command _ (fun _ => rfl) s

theorem runsOn_localRead (fits : Bool) (table : TableName) (start count : Nat) (s : State) :
    CompletesRunningOn s (.next (takeCommand .tableRead (localRead fits table start count) s)) := by
  cases table <;> exact runsOn_command _ (fun _ => rfl) s

/-! ## Events that may change nothing -/

theorem runsOn_lossOfSignal (cut : Option CutFrame) (s : State) : CompletesRunningOn s (execLossOfSignal cut s) := by
  unfold execLossOfSignal
  split_ifs
  · exact ((channelsRunOn_cutFrame cut s).trans (.of_bulk (by simp))).completes
  · exact .of_bulk rfl
  · exact .of_bulk rfl

theorem runsOn_fillRunLimit (s : State) : CompletesRunningOn s (execFillRunLimit s) := by
  unfold execFillRunLimit
  split
  · exact .of_bulk (by simp)
  · exact .of_bulk rfl

theorem runsOn_errorRunLimit (run : ErrorRun) (s : State) : CompletesRunningOn s (execErrorRunLimit run s) := by
  unfold execErrorRunLimit errorsInside
  split
  · split
    · exact .of_bulk (by simp)
    · exact .of_bulk rfl
  · next c =>
    split
    · split
      · exact ((channelsRunOn_cutFrame (some c) s).trans (.of_bulk (by simp))).completes
      · exact .of_bulk rfl
    · exact .of_bulk rfl

theorem runsOn_foreignFrame (k : FrameKind) (f : RxFrame) (sent : Option Nat) (s : State) :
    CompletesRunningOn s (execForeignFrame k f sent s) := by
  unfold execForeignFrame
  split
  · exact .of_bulk rfl
  · exact (channelsRunOn_anchorFrame (channelsRunOn_foreignJudged k f sent) k f sent s).completes

theorem runsOn_fieldEdge (low : Nat) (s : State) : CompletesRunningOn s (execFieldEdge low s) := by
  unfold execFieldEdge
  split <;> exact .of_bulk rfl

theorem runsOn_fieldComputationEnd (s : State) : CompletesRunningOn s (execFieldComputationEnd s) := by
  unfold execFieldComputationEnd offerBundle
  split
  · exact .of_bulk rfl
  · exact .of_bulk (by split <;> simp)

theorem runsOn_commandByteWrite (b : Byte) (s : State) : CompletesRunningOn s (execCommandByteWrite b s) := by
  unfold execCommandByteWrite
  split <;> exact .of_bulk rfl

theorem runsOn_reportByteRead (s : State) : CompletesRunningOn s (execReportByteRead s) := by
  unfold execReportByteRead
  split <;> exact .of_bulk rfl

theorem runsOn_emptyFrame (s : State) : CompletesRunningOn s (execEmptyFrame s) := by
  unfold execEmptyFrame
  split <;> exact .of_bulk rfl

theorem runsOn_damagedFrame (s : State) : CompletesRunningOn s (execDamagedFrame s) := by
  unfold execDamagedFrame
  split
  · split
    · exact .of_bulk (by simp)
    · split
      · exact .of_bulk (by simp)
      · exact .of_bulk rfl
  · exact .of_bulk rfl

theorem runsOn_unknownCommand (code : Byte) (s : State) : CompletesRunningOn s (execUnknownCommand code s) := by
  unfold execUnknownCommand
  split
  · exact .of_bulk (by simp)
  · exact .of_bulk rfl

theorem runsOn_replyPlaced (s : State) : CompletesRunningOn s (execReplyPlaced s) := by
  unfold execReplyPlaced
  split
  · exact .of_bulk rfl
  · split <;> exact .of_bulk rfl

theorem runsOn_reportPendingPlaced (s : State) : CompletesRunningOn s (execReportPendingPlaced s) := by
  unfold execReportPendingPlaced
  split
  · exact .of_bulk rfl
  · split <;> exact .of_bulk rfl

theorem runsOn_noticePlaced (s : State) : CompletesRunningOn s (execNoticePlaced s) := by
  unfold execNoticePlaced
  split_ifs <;> exact .of_bulk rfl

theorem fireNow_bulk (s : State) : (fireNow s).bulk = s.bulk := by
  unfold fireNow
  split
  · split <;> simp
  · rfl
  · rfl

/-! ## Every command and event, and the step -/

theorem exec_runsOn (i : Instr) (s : State) : CompletesRunningOn s (exec i s) := by
  match i with
  | .powerReset => exact ⟨_, rfl, fun _ => channelsAccount_of_reset rfl⟩
  | .lossOfSignal cut => exact runsOn_lossOfSignal cut s
  | .fillRunLimit => exact runsOn_fillRunLimit s
  | .errorRunLimit run => exact runsOn_errorRunLimit run s
  | .nodeCycleFrame f => exact (channelsRunOn_nodeFrame .cycle f s).completes
  | .silenceLimit => exact runsOn_atInstant channelsRunOn_silenceExpires s
  | .cycleBoundary => exact runsOn_atInstant channelsRunOn_atBoundary s
  | .returnMissLimit => exact runsOn_atInstant (fun u => .of_bulk (by simp)) s
  | .cycleReturn f => exact (channelsRunOn_anchorFrame (channelsRunOn_anchorCycle f) .cycle f none s).completes
  | .foreignFrame kind f sent => exact runsOn_foreignFrame kind f sent s
  | .nodeCollectFrame f => exact (channelsRunOn_nodeFrame .collect f s).completes
  | .collectReturn f trip =>
    exact (channelsRunOn_anchorFrame (channelsRunOn_anchorCollect f trip) .collect f none s).completes
  | .linkWaitEnd => exact runsOn_atInstant (fun _ => .of_bulk (by rfl)) s
  | .raceWaitEnd => exact runsOn_atInstant (fun _ => .of_bulk (by rfl)) s
  | .raceTimeTop => exact runsOn_atInstant (fun _ => .of_bulk (by rfl)) s
  | .goPulseEnd => exact runsOn_atInstant (fun _ => .of_bulk (by rfl)) s
  | .goFire => exact runsOn_atInstant (fun u => .of_bulk (fireNow_bulk u)) s
  | .fieldEdge low => exact runsOn_fieldEdge low s
  | .fieldComputationEnd => exact runsOn_fieldComputationEnd s
  | .outstandingWaitLimit => exact (channelsRunOn_endWaitedOut s).completes
  | .claimAgeLimit => exact runsOn_atInstant (fun _ => .of_bulk (by rfl)) s
  | .closeDeadline => exact runsOn_atInstant (fun u => .of_bulk (by simp)) s
  | .lostCarLimit car => exact runsOn_atInstant (fun u => .of_bulk (by simp)) s
  | .referralTimeout => exact runsOn_atInstant (fun u => .of_bulk (by simp)) s
  | .receiveIdleLimit e => exact runsOn_atInstant (fun u => .of_send (closeRecv_send e .idle u)) s
  | .commandByteWrite b => exact runsOn_commandByteWrite b s
  | .reportByteRead => exact runsOn_reportByteRead s
  | .emptyFrame => exact runsOn_emptyFrame s
  | .damagedFrame => exact runsOn_damagedFrame s
  | .unknownCommand code => exact runsOn_unknownCommand code s
  | .replyPlaced => exact runsOn_replyPlaced s
  | .reportPendingPlaced => exact runsOn_reportPendingPlaced s
  | .noticePlaced => exact runsOn_noticePlaced s
  | .lockChange b => exact .of_bulk rfl
  | .configure .. => exact runsOn_command _ (fun u => configureAct_bulk _ _ _ _ _ u) s
  | .restart _ => exact runsOn_takeCommand _ (fun _ _ _ => channelsAccount_of_reset rfl) s
  | .standby args => exact runsOn_takeCommand _ (fun u _ => channelsRunOn_standby args.cut u) s
  | .resumeRing _ => exact runsOn_command _ (fun u => by dsimp only [done]; split <;> simp [leaveStandby]) s
  | .status _ part => exact runsOn_command _ (fun u => statusAct_bulk part u) s
  | .survey _ => exact runsOn_command _ (fun u => by simp) s
  | .openGathering _ => exact runsOn_command _ (fun u => by simp [done]) s
  | .closeGathering _ => exact runsOn_command _ (fun u => by simp [done]) s
  | .startRace .. => exact runsOn_command _ (fun u => by simp [done]) s
  | .abortRace _ => exact runsOn_command _ (fun u => emptyRace_bulk .abortRace u) s
  | .hold _ => exact runsOn_command _ (fun u => by simp [done]) s
  | .resume _ => exact runsOn_command _ (fun u => by simp [resumeAct]) s
  | .clearRace _ => exact runsOn_command _ (fun u => emptyRace_bulk .clearRace u) s
  | .raceSetupWrite .. => exact runsOn_command _ (fun _ => rfl) s
  | .raceSetupRead .. => exact runsOn_command _ (fun _ => rfl) s
  | .gridWrite .. => exact runsOn_command _ (fun _ => rfl) s
  | .gridRead .. => exact runsOn_command _ (fun _ => rfl) s
  | .poll .. => exact runsOn_command _ (fun _ => rfl) s
  | .clearStations _ => exact runsOn_command _ (fun _ => rfl) s
  | .admitCar _ choice => exact runsOn_command _ (fun u => admitAct_bulk choice u) s
  | .refuse _ => exact runsOn_command _ (fun u => by simp [done]) s
  | .join _ seat tag => exact runsOn_command _ (fun u => joinAct_bulk seat tag u) s
  | .leave _ seat => exact runsOn_command _ (fun u => leaveAct_bulk seat u) s
  | .setReady .. => exact runsOn_command _ (fun _ => rfl) s
  | .requestAttention .. => exact runsOn_command _ (fun _ => rfl) s
  | .withdrawAttention _ => exact runsOn_command _ (fun _ => rfl) s
  | .localTrigger _ => exact runsOn_command _ (fun _ => rfl) s
  | .carReport .. => exact runsOn_command _ (fun _ => rfl) s
  | .game .. => exact runsOn_command _ (fun _ => rfl) s
  | .bulkOpen _ ch peer total optEnd optEach =>
    exact runsOn_takeCommand _ (fun u _ => channelsRunOn_open ch peer total optEnd optEach u) s
  | .bulkData _ ch bytes =>
    refine runsOn_takeCommand _ (fun u hpassed => ?_) s
    obtain ⟨hroom, hlength⟩ := room_of_dataTests hpassed
    exact channelsRunOn_dataAct hroom hlength
  | .bulkAbort _ ch => exact runsOn_takeCommand _ (fun u _ => channelsRunOn_abortAct ch u) s
  | .tableWrite fits table start values => exact runsOn_localWrite fits table start values s
  | .tableRead fits table start count => exact runsOn_localRead fits table start count s
  | .remoteTableWrite .. => exact runsOn_command _ (fun _ => rfl) s
  | .remoteTableRead .. => exact runsOn_command _ (fun _ => rfl) s
  | .protectOn _ => exact runsOn_command _ (fun _ => rfl) s
  | .protectOff _ => exact runsOn_command _ (fun _ => rfl) s
  | .protectionListWrite .. => exact runsOn_command _ (fun _ => rfl) s

/-- A tick, too: one of the events that are due, or a µs that passes. -/
theorem tick_runsOn (s : State) : CompletesRunningOn s (tick s) := by
  unfold tick
  split
  · exact (ChannelsRunOn.of_send (elapse_send 1 s)).completes
  · next first rest _ =>
    have hpick : (pickDue first rest s).2.bulk = s.bulk := by
      unfold pickDue
      split <;> rfl
    obtain ⟨t, hexec, hruns⟩ := exec_runsOn (pickDue first rest s).1 (pickDue first rest s).2
    exact ⟨t, hexec, (ChannelsRunOn.of_bulk hpick).trans hruns⟩

theorem step_runsOn (s : State) : CompletesRunningOn s (step s) := by
  unfold step
  split
  · exact tick_runsOn s
  · next i rest _ =>
    obtain ⟨t, hexec, hruns⟩ := exec_runsOn i (s.withPending rest)
    exact ⟨t, hexec, (ChannelsRunOn.of_bulk rfl).trans hruns⟩

/-- Settles O60: each command, event and tick lets the channels run on. -/
theorem stepKeepsTheChannels : Obligations.StepKeepsTheChannels := by
  intro s t hs hstep
  obtain ⟨u, hu, hruns⟩ := step_runsOn s
  obtain rfl : u = t := Host.Outcome.next.inj (hu.symm.trans hstep)
  exact hruns hs

end Sys2Proof.Machine
end

section
/-! Bulk Open, Bulk Data and Bulk Abort, by the order of their tests (chapter 10, R151 to R156). -/

namespace Sys2Proof.Machine

open Sys2Proof Sys2Proof.Safety

/-! ## What becomes ready (R154, R156) -/

/-- A channel set becomes ready in its turn when it holds a full segment or an abort and has nothing ready. -/
theorem makeReady_setChan {ch : Nat} (x : SendChannel) {s : State} (hch : ch = 1 ∨ ch = 2)
    (hlength : s.bulk.send.length = 2) :
    makeReady ch (setChan ch x s) =
      if x.ready = none ∧ (segmentReady x = true ∨ abortReady x = true) then
        { s with
          bulk := { s.bulk with send := s.bulk.send.set (ch - 1) { x with ready := some s.slots.arrival } },
          slots := { s.slots with arrival := s.slots.arrival + 1 } }
      else setChan ch x s := by
  simp only [makeReady, chanAt_setChan ch x s hch hlength, Bool.and_eq_true, Bool.or_eq_true, Option.isNone_iff_eq_none]
  split
  · simp [setChan, State.withBulk, State.withSlots]
  · rfl

/-- An ACTIVE channel that no abort stops is ready by its buffer (R154). -/
theorem segmentReady_iff {c : SendChannel} (hactive : c.state = .active) (hgoes : c.abortPending = false) :
    segmentReady c = true ↔ c.out = none ∧ min 20 c.remaining ≤ c.buffer.length := by
  simp [segmentReady, armed, hactive, hgoes]

theorem segmentReady_aborting {c : SendChannel} (hpending : c.abortPending = true) : segmentReady c = false := by
  simp [segmentReady, armed, hpending]

theorem abortReady_going {c : SendChannel} (hgoes : c.abortPending = false) : abortReady c = false := by
  simp [abortReady, hgoes]

theorem abortReady_iff {c : SendChannel} (hactive : c.state = .active) (hpending : c.abortPending = true) :
    abortReady c = true ↔ c.out = none := by
  simp [abortReady, hactive, hpending]

/-! ## The tests of the three commands -/

theorem channelKnown_iff (ch : Nat) : channelKnown ch = true ↔ ch = 1 ∨ ch = 2 := by simp [channelKnown]

/-- The tests of Bulk Open (R152). -/
def openTests (fits : Bool) (ch peer total : Nat) (s : State) : List (Bool × RefusalReason) :=
  posterTests fits s ++
    [(channelKnown ch && decide (peer < 15) && total != 0, .malformed), (peer != address s, .self),
     (ringReady s, .notMapped), (!channelActive s ch, .busy)]

/-- The tests of Bulk Abort (R156). -/
def abortTests (fits : Bool) (ch : Nat) (s : State) : List (Bool × RefusalReason) :=
  baseTests fits s ++ [(channelKnown ch, .malformed)]

section
variable {s : State} {ch : Nat}

theorem firstRefusal_open (hc : configured s = true) (hrole : role s ≠ .observer) (hring : s.cyc.ring ≠ .deferred)
    (peer total : Nat) :
    firstRefusal (openTests true ch peer total s) =
      if ¬ ((ch = 1 ∨ ch = 2) ∧ peer < 15 ∧ 0 < total) then some .malformed
      else if peer = address s then some .self
      else if ringReady s = false then some .notMapped
      else if (chanAt s ch).state = .active then some .busy else none := by
  rw [openTests, firstRefusal_posterTests_append hc hrole hring]
  simp only [firstRefusal_cons, firstRefusal_nil, Bool.and_eq_true, channelKnown_iff, decide_eq_true_eq, bne_iff_ne,
    and_assoc, ← Nat.pos_iff_ne_zero, channelActive, Bool.not_eq_true', beq_iff_eq, ← Bool.not_eq_true, ite_not]

theorem firstRefusal_data (hc : configured s = true) (data : List Byte) :
    firstRefusal (dataTests true ch data s) =
      if ¬ ((ch = 1 ∨ ch = 2) ∧ data ≠ []) then some .malformed
      else if ¬ ((chanAt s ch).state = .active ∧ (chanAt s ch).abortPending = false) then some .length
      else if 256 < (chanAt s ch).buffer.length + data.length then some .full
      else if (chanAt s ch).total < (chanAt s ch).supplied + data.length then some .length else none := by
  rw [dataTests, firstRefusal_baseTests_append hc]
  simp only [firstRefusal_cons, firstRefusal_nil, Bool.and_eq_true, channelKnown_iff, decide_eq_true_eq, channelActive,
    Bool.not_eq_true', beq_iff_eq, ← Bool.not_eq_true, List.isEmpty_iff, ite_not, ← Nat.not_le]

theorem firstRefusal_abort (hc : configured s = true) :
    firstRefusal (abortTests true ch s) = if ch = 1 ∨ ch = 2 then none else some .malformed := by
  rw [abortTests, firstRefusal_baseTests_append hc]
  simp [channelKnown_iff]

theorem refused_open {r : RefusalReason} {peer total : Nat} (htake : canTake s = true)
    (h : firstRefusal (openTests true ch peer total s) = some r) (optEnd optEach : Bool) :
    Refused .bulkOpen (.bulkOpen true ch peer total optEnd optEach) r s :=
  congrArg Host.Outcome.next (takeCommand_refused .bulkOpen (tests := openTests true ch peer total) _ s htake h)

theorem refused_data {r : RefusalReason} {data : List Byte} (htake : canTake s = true)
    (h : firstRefusal (dataTests true ch data s) = some r) : Refused .bulkData (.bulkData true ch data) r s :=
  congrArg Host.Outcome.next (takeCommand_refused .bulkData (tests := dataTests true ch data) _ s htake h)

theorem refused_abort {r : RefusalReason} (htake : canTake s = true)
    (h : firstRefusal (abortTests true ch s) = some r) : Refused .bulkAbort (.bulkAbort true ch) r s :=
  congrArg Host.Outcome.next (takeCommand_refused .bulkAbort (tests := abortTests true ch) _ s htake h)

/-! ## The commands taken -/

theorem exec_bulkOpen {peer total : Nat} (htake : canTake s = true)
    (hpass : firstRefusal (openTests true ch peer total s) = none) (optEnd optEach : Bool) :
    exec (.bulkOpen true ch peer total optEnd optEach) s =
      .next (giveReply (.command .bulkOpen) (.done .none)
        (setChan ch (openedChannel peer total optEnd optEach) (dropFrame s))) :=
  congrArg Host.Outcome.next (takeCommand_done .bulkOpen (tests := openTests true ch peer total)
    (setChan ch (openedChannel peer total optEnd optEach)) htake hpass)

theorem exec_bulkData {data : List Byte} (htake : canTake s = true)
    (hpass : firstRefusal (dataTests true ch data s) = none) :
    exec (.bulkData true ch data) s =
      .next (giveReply (.command .bulkData) (dataAct ch data (dropFrame s)).2 (dataAct ch data (dropFrame s)).1) :=
  congrArg Host.Outcome.next
    (takeCommand_passed .bulkData (tests := dataTests true ch data) (fun _ => dataAct ch data) s htake hpass)

theorem exec_bulkAbort (htake : canTake s = true) (hpass : firstRefusal (abortTests true ch s) = none) :
    exec (.bulkAbort true ch) s =
      .next (giveReply (.command .bulkAbort) (.done .none) (abortAct ch (dropFrame s))) :=
  congrArg Host.Outcome.next
    (takeCommand_done .bulkAbort (tests := abortTests true ch) (abortAct ch) htake hpass)

/-! ## What they make of the channel (R153, R154, R156) -/

/-- Bulk Data at an ACTIVE channel that no abort stops (R153, R154). -/
theorem dataAct_active (hch : ch = 1 ∨ ch = 2) (hlength : s.bulk.send.length = 2)
    (hactive : (chanAt s ch).state = .active) (hgoes : (chanAt s ch).abortPending = false) (data : List Byte) :
    let c := chanAt s ch
    let full := c.ready = none ∧ c.out = none ∧ min 20 c.remaining ≤ c.buffer.length + data.length
    dataAct ch data s =
      ({ s with
         bulk := { s.bulk with send := s.bulk.send.set (ch - 1) { c with
                    buffer := c.buffer ++ data, supplied := c.supplied + data.length,
                    ready := if full then some s.slots.arrival else c.ready } },
         slots := { s.slots with arrival := if full then s.slots.arrival + 1 else s.slots.arrival } },
        .done (.bulk (c.buffer.length + data.length) (c.total - (c.supplied + data.length)))) := by
  intro c full
  have hready : (suppliedChannel data c).ready = none ∧
      (segmentReady (suppliedChannel data c) = true ∨ abortReady (suppliedChannel data c) = true) ↔ full := by
    rw [segmentReady_iff (c := suppliedChannel data c) hactive hgoes,
      abortReady_going (c := suppliedChannel data c) hgoes]
    simp [full, suppliedChannel]
  rw [dataAct, makeReady_setChan _ hch hlength]
  by_cases hfull : full
  · rw [if_pos (hready.2 hfull), if_pos hfull, if_pos hfull]
    simp [suppliedChannel, c]
  · rw [if_neg (mt hready.1 hfull), if_neg hfull, if_neg hfull]
    simp [suppliedChannel, c, setChan, State.withBulk]

theorem nothingPosted_iff (c : SendChannel) : nothingPosted c = true ↔ c.nextSeq = 0 ∧ c.out = none := by
  simp [nothingPosted]

theorem abortAct_active (hactive : (chanAt s ch).state = .active) (hgoes : (chanAt s ch).abortPending = false) :
    abortAct ch s =
      if nothingPosted (chanAt s ch) then failChannel ch .aborted s
      else makeReady ch (setChan ch (abortingChannel (chanAt s ch)) s) := if_pos ⟨hactive, hgoes⟩

/-- Bulk Abort fails the channel at once when nothing was posted (R156). -/
theorem abortAct_unposted (hactive : (chanAt s ch).state = .active) (hgoes : (chanAt s ch).abortPending = false)
    (hseq : (chanAt s ch).nextSeq = 0) (hout : (chanAt s ch).out = none) :
    abortAct ch s = failChannel ch .aborted s := by
  rw [abortAct_active hactive hgoes, if_pos ((nothingPosted_iff _).2 ⟨hseq, hout⟩)]

/-- Bulk Abort of a stream that has been posted from empties the buffer, and a BULK ABORT is ready once nothing is
outstanding (R156). -/
theorem abortAct_posted (hch : ch = 1 ∨ ch = 2) (hlength : s.bulk.send.length = 2)
    (hactive : (chanAt s ch).state = .active) (hgoes : (chanAt s ch).abortPending = false)
    (hposted : (chanAt s ch).nextSeq ≠ 0 ∨ (chanAt s ch).out ≠ none) :
    let c := chanAt s ch
    abortAct ch s =
      { s with
        bulk := { s.bulk with send := s.bulk.send.set (ch - 1) { c with
                   abortPending := true, buffer := [],
                   ready := if c.out = none then some s.slots.arrival else none } },
        slots := { s.slots with arrival := if c.out = none then s.slots.arrival + 1 else s.slots.arrival } } := by
  intro c
  have hnothing : nothingPosted c ≠ true := by
    rw [Ne, nothingPosted_iff]
    tauto
  have hready : (abortingChannel c).ready = none ∧
      (segmentReady (abortingChannel c) = true ∨ abortReady (abortingChannel c) = true) ↔ c.out = none := by
    rw [segmentReady_aborting (c := abortingChannel c) rfl, abortReady_iff (c := abortingChannel c) hactive rfl]
    simp [abortingChannel]
  rw [abortAct_active hactive hgoes, if_neg hnothing, makeReady_setChan _ hch hlength]
  by_cases hout : c.out = none
  · rw [if_pos (hready.2 hout), if_pos hout, if_pos hout]
    rfl
  · rw [if_neg (mt hready.1 hout), if_neg hout, if_neg hout]
    rfl

theorem abortAct_ended (h : (chanAt s ch).state ≠ .active ∨ (chanAt s ch).abortPending = true) : abortAct ch s = s := by
  rcases h with h | h <;> simp [abortAct, h]

end

/-- Settles O48: each command by the first of its tests that fails, and by what it makes of its channel. -/
theorem bulkCommandsMoveTheChannel : Obligations.BulkCommandsMoveTheChannel := by
  refine ⟨?refused, ?taken⟩
  case refused =>
    rintro s ch ⟨htake, hc⟩ known
    refine ⟨fun hrole hring peer total optEnd optEach => ⟨fun hbad => ?malformed, fun hknown hpeer htotal =>
      ⟨fun hself => ?self, fun hother hunmapped => ?notMapped⟩⟩, fun data hbad => ?data, fun hbad => ?abort⟩
    case malformed =>
      refine refused_open htake ?_ _ _
      rw [firstRefusal_open hc hrole hring, if_pos (by omega)]
    case self =>
      refine refused_open htake ?_ _ _
      rw [firstRefusal_open hc hrole hring, if_neg (not_not_intro ⟨hknown, by omega, htotal⟩), if_pos hself]
    case notMapped =>
      refine refused_open htake ?_ _ _
      rw [firstRefusal_open hc hrole hring, if_neg (not_not_intro ⟨hknown, by omega, htotal⟩), if_neg hother,
        if_pos hunmapped]
    case data =>
      refine refused_data htake ?_
      rw [firstRefusal_data hc, if_pos (by tauto)]
    case abort =>
      refine refused_abort htake ?_
      rw [firstRefusal_abort hc, if_neg hbad]
  case taken =>
    intro s ch htake hc hknown hlength c setTo
    refine ⟨fun peer total optEnd optEach hrole hring hready hpeer hother htotal => ⟨fun hidle => ?opened,
      fun hactive => ?busy⟩, fun data hdata => ⟨fun hactive hgoes hroom hfits => ?supplied, fun hends => ?ends,
      fun hactive hgoes hfull => ?full, fun hactive hgoes hroom hlong => ?long⟩,
      fun hactive hgoes => ⟨fun hseq hout => ?failed, fun hposted => ?aborting⟩, fun hends => ?unchanged⟩
    case opened =>
      refine exec_bulkOpen htake ?_ _ _
      rw [firstRefusal_open hc hrole hring, if_neg (not_not_intro ⟨hknown, hpeer, htotal⟩), if_neg hother,
        if_neg (by simp [hready]), if_neg hidle]
    case busy =>
      refine refused_open htake ?_ _ _
      rw [firstRefusal_open hc hrole hring, if_neg (not_not_intro ⟨hknown, hpeer, htotal⟩), if_neg hother,
        if_neg (by simp [hready]), if_pos hactive]
    case supplied =>
      intro full
      have hpass : firstRefusal (dataTests true ch data s) = none := by
        rw [firstRefusal_data hc, if_neg (not_not_intro ⟨hknown, hdata⟩), if_neg (not_not_intro ⟨hactive, hgoes⟩),
          if_neg hroom.not_gt, if_neg hfits.not_gt]
      rw [exec_bulkData htake hpass, dataAct_active (s := dropFrame s) hknown hlength hactive hgoes]
      rfl
    case ends =>
      refine refused_data htake ?_
      rw [firstRefusal_data hc, if_neg (not_not_intro ⟨hknown, hdata⟩), if_pos]
      rcases hends with h | h
      · exact fun hgoes => h hgoes.1
      · exact fun hgoes => by simp [h, c] at hgoes
    case full =>
      refine refused_data htake ?_
      rw [firstRefusal_data hc, if_neg (not_not_intro ⟨hknown, hdata⟩), if_neg (not_not_intro ⟨hactive, hgoes⟩),
        if_pos hfull]
    case long =>
      refine refused_data htake ?_
      rw [firstRefusal_data hc, if_neg (not_not_intro ⟨hknown, hdata⟩), if_neg (not_not_intro ⟨hactive, hgoes⟩),
        if_neg hroom.not_gt, if_pos hlong]
    all_goals
      rw [exec_bulkAbort htake (by rw [firstRefusal_abort hc, if_pos hknown])]
    case failed =>
      rw [abortAct_unposted (s := dropFrame s) hactive hgoes hseq hout]
      rfl
    case aborting =>
      rw [abortAct_posted (s := dropFrame s) hknown hlength hactive hgoes hposted]
      rfl
    case unchanged => rw [abortAct_ended (s := dropFrame s) hends]

end Sys2Proof.Machine
end

section
/-! A BULK SEGMENT and a BULK ABORT at their destination: the payload, the entry of a stream, and the rows of R159's
table in their order (chapter 10, R154, R158 to R162). -/

namespace Sys2Proof.Machine

open Sys2Proof Sys2Proof.Safety

/-! ## The payload of a BULK SEGMENT (R154) -/

theorem numAt_head (l : List Byte) (n v : Nat) : numAt (beBytes n v ++ l) 0 n = v % 256 ^ n := by
  rw [numAt, List.drop_zero, List.take_left' (length_beBytes n v), beNat_beBytes]

theorem numAt_behind (a b : List Byte) (n : Nat) : numAt (a ++ b) a.length n = numAt b 0 n := by simp [numAt]

/-- A segment's payload is read as it was written. -/
theorem segmentHead_payload {ch seq total : Nat} (hch : ch < 4) (hseq : seq < 4096) (htotal : total < 65536)
    (endMark : Bool) (data : List Byte) :
    segmentHead (segmentPayload ch seq endMark total data) = (ch, seq, endMark, total) := by
  let v := ch % 4 * 16384 + bitNum endMark 12 + seq % 4096
  have hmark : bitNum endMark 12 = 4096 * endMark.toNat := by cases endMark <;> rfl
  have hone : endMark.toNat ≤ 1 := endMark.toNat_le
  have hfirst : numAt (segmentPayload ch seq endMark total data) 0 2 = v := by
    rw [segmentPayload, List.append_assoc, numAt_head]
    omega
  have hsecond : numAt (segmentPayload ch seq endMark total data) 2 2 = total := by
    rw [segmentPayload, List.append_assoc]
    refine (numAt_behind (beBytes 2 v) _ 2).trans ?_
    rw [numAt_head]
    omega
  have hbit : v / 2 ^ 12 % 2 = endMark.toNat := by omega
  rw [segmentHead, hfirst, hsecond, bitOf, hbit]
  refine Prod.ext (by simp only; omega) (Prod.ext (by simp only; omega) (Prod.ext ?_ rfl))
  cases endMark <;> rfl

theorem drop_segmentPayload (ch seq : Nat) (endMark : Bool) (total : Nat) (data : List Byte) :
    (segmentPayload ch seq endMark total data).drop 4 = data :=
  List.drop_left' (by simp)

/-- A payload that R159's first row does not refuse: a channel, a total length, and 1 to 20 bytes of data. -/
def GoodSegment (ch total : Nat) (data : List Byte) : Prop :=
  (ch = 1 ∨ ch = 2) ∧ total ≠ 0 ∧ data ≠ [] ∧ data.length ≤ 20

/-! ## The entry of a stream, and the entry that is FREE (R158) -/

section
variable {s : State} {source ch i j : Nat} {e : ReceiveEntry}

/-- An OPEN entry is one of the four. -/
theorem mem_of_recvAt (h : recvAt s i = some e) : some e ∈ s.bulk.recv := by
  unfold recvAt at h
  rw [List.getD_eq_getElem?_getD] at h
  cases hget : s.bulk.recv[i]? with
  | none => simp [hget] at h
  | some x =>
    obtain rfl : x = some e := by simpa [hget] using h
    exact List.mem_of_getElem? hget

theorem entryOf_none (h : ∀ e, some e ∈ s.bulk.recv → ¬ (e.source = source ∧ e.channel = ch)) :
    entryOf s source ch = none := by
  refine List.find?_range_eq_none.2 fun i _ => ?_
  cases hi : recvAt s i with
  | none => simp
  | some e => simpa [← not_and_or] using h e (mem_of_recvAt hi)

/-- The lowest entry of a stream is the one found. -/
theorem entryOf_some (hi : i < 4) (he : recvAt s i = some e) (hstream : e.source = source ∧ e.channel = ch)
    (hlowest : ∀ j < i, ∀ d, recvAt s j = some d → ¬ (d.source = source ∧ d.channel = ch)) :
    entryOf s source ch = some i := by
  refine List.find?_range_eq_some.2 ⟨by simpa [he] using hstream, List.mem_range.2 hi, fun j hj => ?_⟩
  cases hd : recvAt s j with
  | none => simp
  | some d => simpa [← not_and_or] using hlowest j hj d hd

theorem freeEntry_none (hlength : s.bulk.recv.length = 4) (h : none ∉ s.bulk.recv) : freeEntry s = none := by
  refine List.find?_range_eq_none.2 fun i hi => ?_
  have hmem : recvAt s i ∈ s.bulk.recv := by
    rw [recvAt, List.getD_eq_getElem _ _ (hlength.symm ▸ hi)]
    exact List.getElem_mem _
  rw [Bool.not_eq_true', Option.isNone_eq_false_iff, Option.isSome_iff_ne_none]
  exact fun hnone => h (hnone ▸ hmem)

theorem freeEntry_some (hi : i < 4) (hfree : recvAt s i = none) (hlowest : ∀ j < i, recvAt s j ≠ none) :
    freeEntry s = some i :=
  List.find?_range_eq_some.2 ⟨by simp [hfree], List.mem_range.2 hi, fun j hj => by
    simpa [Option.isSome_iff_ne_none] using hlowest j hj⟩

theorem recvAt_of_set {t : State} {x : Option ReceiveEntry} (ht : t.bulk.recv = s.bulk.recv.set i x) (hne : j ≠ i) :
    recvAt t j = recvAt s j := by
  simp [recvAt, ht, List.getD_eq_getElem?_getD, hne.symm]

theorem recvAt_of_closed {t : State} (ht : t.bulk.recv = s.bulk.recv.set i none) : recvAt t i = none := by
  by_cases hi : i < s.bulk.recv.length <;> simp [recvAt, ht, List.getD_eq_getElem?_getD, hi]

/-- With one entry closed the lowest FREE one is it, or one below it. -/
theorem freeEntry_closed {t : State} (ht : t.bulk.recv = s.bulk.recv.set i none) (hi : i < 4) (hj : j ≤ i)
    (hlowest : ∀ k < j, recvAt s k ≠ none) (hfree : j = i ∨ recvAt s j = none) : freeEntry t = some j := by
  refine freeEntry_some (by omega) ?_ fun k hk => ?_
  · rcases eq_or_ne j i with rfl | hne
    · exact recvAt_of_closed ht
    · rw [recvAt_of_set ht hne]
      exact hfree.resolve_left hne
  · rw [recvAt_of_set ht (by omega)]
    exact hlowest k hk

/-! ## An entry closed (R159, R161) -/

theorem closeRecv_open (he : recvAt s i = some e) (why : ReceiveFailure) :
    closeRecv i why s = queueEvent (recvFailure e why) (setRecv i none s) := by
  simp [closeRecv, he]

/-- A report takes at most its own bytes of the room. -/
theorem reportFree_placeReport (r : Report) (s : State) : reportFree s ≤ reportFree (placeReport r s) + reportSize r := by
  have hsum : ((s.port.reports ++ [r]).map reportSize).sum = (s.port.reports.map reportSize).sum + reportSize r := by
    simp
  simp only [reportFree, reportBytes, placeReport, State.withPort_port, hsum]
  omega

theorem reportFree_queueEvent (r : Report) (s : State) : reportFree s ≤ reportFree (queueEvent r s) + reportSize r := by
  rcases queueEvent_cases r s with ⟨k, -, -, -, h⟩ | ⟨k, -, -, h⟩ | ⟨-, h⟩
  · rw [h]
    exact reportFree_placeReport r s
  · rw [h]
    exact Nat.le_add_right _ _
  · rw [h]
    exact Nat.le_add_right _ _

theorem closeRestarted_room {seg : Report}
    (h : reportSize (recvFailure e .restarted) + reportSize seg ≤ reportFree s) :
    closeRestarted i e seg s = closeRecv i .restarted s := if_pos h

theorem closeRestarted_noRoom {seg : Report}
    (h : reportFree s < reportSize (recvFailure e .restarted) + reportSize seg) :
    closeRestarted i e seg s = recordNotice .bulk (setRecv i none s) := if_neg h.not_ge

theorem closeRestarted_recv (he : recvAt s i = some e) (seg : Report) :
    (closeRestarted i e seg s).bulk.recv = s.bulk.recv.set i none := by
  unfold closeRestarted
  split
  · simp [closeRecv_open he, setRecv]
  · simp [setRecv]

/-- The segment that restarts an entry keeps the room for its report (R159). -/
theorem roomFor_closeRestarted (he : recvAt s i = some e) {seg : Report} (h : reportSize seg ≤ reportFree s) :
    roomFor (closeRestarted i e seg s) seg = true := by
  refine roomFor_of_le ?_
  by_cases hroom : reportSize (recvFailure e .restarted) + reportSize seg ≤ reportFree s
  · have hfree := reportFree_queueEvent (recvFailure e .restarted) (setRecv i none s)
    rw [closeRestarted_room hroom, closeRecv_open he]
    have hsame : reportFree (setRecv i none s) = reportFree s := rfl
    omega
  · rw [closeRestarted_noRoom (Nat.lt_of_not_ge hroom)]
    exact h

theorem idleLimitMicros_closeRestarted (seg : Report) :
    idleLimitMicros (closeRestarted i e seg s) = idleLimitMicros s := by
  simp [idleLimitMicros, setting]

/-! ## A segment taken (R160) -/

theorem takeSegment_eq (data : List Byte) (endMark : Bool) :
    takeSegment i e data endMark s =
      (if e.received + data.length = e.total then
          queueEvent (.bulkEnd e.source e.channel e.total endMark)
            { s with
              bulk := { s.bulk with recv := s.bulk.recv.set i none },
              port := { s.port with reports := s.port.reports ++ [segmentReport e data endMark] } }
        else
          { s with
            bulk := { s.bulk with
              recv := s.bulk.recv.set i (some (recvAfter (idleLimitMicros s) data.length e)) },
            port := { s.port with reports := s.port.reports ++ [segmentReport e data endMark] } },
        some (.accepted (beBytes 2 e.expected ++ beBytes 2 (e.received + data.length)))) := by
  unfold takeSegment
  split
  · next hcomplete => simp [if_pos (show e.received + data.length = e.total from hcomplete), recvAfter, setRecv,
      placeReport, State.withBulk, State.withPort]
  · next hmore => simp [if_neg (show ¬ e.received + data.length = e.total from hmore), recvAfter, setRecv,
      placeReport, State.withBulk, State.withPort]

end

/-! ## A segment with no entry that is taken over (R159) -/

section
variable {s : State} {source ch total i : Nat} {data : List Byte}

theorem openSegment_long (h : total < data.length) (endMark : Bool) :
    openSegment source ch total data endMark s = (s, some (.declined .sequence)) := if_pos h

theorem openSegment_busy (h : data.length ≤ total) (hnone : freeEntry s = none) (endMark : Bool) :
    openSegment source ch total data endMark s = (s, some (.declined .busy)) := by
  simp [openSegment, h.not_gt, hnone]

/-- A first segment opens the FREE entry when its report has room. -/
theorem openSegment_room (h : data.length ≤ total) (hfree : freeEntry s = some i) {endMark : Bool}
    (hroom : roomFor s (segmentReport (freshRecv source ch total) data endMark) = true) :
    openSegment source ch total data endMark s = takeSegment i (freshRecv source ch total) data endMark s := by
  simp [openSegment, h.not_gt, hfree, hroom]

theorem openSegment_noRoom (h : data.length ≤ total) (hfree : freeEntry s = some i) {endMark : Bool}
    (hroom : roomFor s (segmentReport (freshRecv source ch total) data endMark) = false) :
    openSegment source ch total data endMark s = (s, none) := by
  simp [openSegment, h.not_gt, hfree, hroom]

end

/-! ## The rows of R159's table -/

section
variable {s : State} {source ch seq total i : Nat} {endMark : Bool} {data : List Byte} {e : ReceiveEntry}

theorem badSegment_iff (ch total : Nat) (data : List Byte) :
    (!(ch == 1 || ch == 2) || total == 0 || data.length == 0 || decide (20 < data.length)) = true ↔
      ¬ GoodSegment ch total data := by
  simp [GoodSegment, ← List.length_eq_zero_iff]
  omega

variable (hch : ch < 4) (hseq : seq < 4096) (htotal : total < 65536)
include hch hseq htotal

theorem segmentAt_bad_closed (hbad : ¬ GoodSegment ch total data)
    (hnone : (ch = 1 ∨ ch = 2) → entryOf s source ch = none) :
    segmentAt source (segmentPayload ch seq endMark total data) s = (s, some (.declined .sequence)) := by
  unfold segmentAt
  rw [segmentHead_payload hch hseq htotal, drop_segmentPayload]
  dsimp only
  rw [if_pos ((badSegment_iff ch total data).2 hbad)]
  by_cases hknown : ch = 1 ∨ ch = 2
  · simp [hnone hknown]
  · simp [hknown]

theorem segmentAt_bad_open (hbad : ¬ GoodSegment ch total data) (hknown : ch = 1 ∨ ch = 2)
    (hopen : entryOf s source ch = some i) :
    segmentAt source (segmentPayload ch seq endMark total data) s =
      (closeRecv i .sequence s, some (.declined .sequence)) := by
  unfold segmentAt
  rw [segmentHead_payload hch hseq htotal, drop_segmentPayload]
  dsimp only
  rw [if_pos ((badSegment_iff ch total data).2 hbad)]
  simp [hknown, hopen]

theorem segmentAt_good_closed (hgood : GoodSegment ch total data) (hnone : entryOf s source ch = none) :
    segmentAt source (segmentPayload ch seq endMark total data) s =
      if seq = 0 then openSegment source ch total data endMark s else (s, some (.declined .noEntry)) := by
  unfold segmentAt
  rw [segmentHead_payload hch hseq htotal, drop_segmentPayload]
  dsimp only
  rw [if_neg (mt (badSegment_iff ch total data).1 (not_not_intro hgood))]
  simp [hnone]

theorem segmentAt_good_open (hgood : GoodSegment ch total data) (hopen : entryOf s source ch = some i)
    (he : recvAt s i = some e) :
    segmentAt source (segmentPayload ch seq endMark total data) s =
      if seq = e.expected ∧ total = e.total ∧ e.received + data.length ≤ e.total then
        if roomFor s (segmentReport e data endMark) then takeSegment i e data endMark s else (s, none)
      else if seq = 0 ∧ e.expected ≠ 0 then
        let seg := segmentReport (freshRecv source ch total) data endMark
        if total < data.length then (closeRecv i .restarted s, some (.declined .sequence))
        else if roomFor s seg then openSegment source ch total data endMark (closeRestarted i e seg s)
        else (s, none)
      else (closeRecv i .sequence s, some (.declined .sequence)) := by
  obtain ⟨hknown, -⟩ := id hgood
  unfold segmentAt
  rw [segmentHead_payload hch hseq htotal, drop_segmentPayload]
  dsimp only
  rw [if_neg (mt (badSegment_iff ch total data).1 (not_not_intro hgood))]
  simp only [beq_iff_eq, Bool.or_eq_true, hknown, if_true, hopen, he]

/-- R159's second row: the segment that the entry expects is taken when its report has room. -/
theorem segmentAt_expected (hgood : GoodSegment ch total data) (hopen : entryOf s source ch = some i)
    (he : recvAt s i = some e) (hnext : seq = e.expected ∧ total = e.total ∧ e.received + data.length ≤ e.total)
    (hroom : roomFor s (segmentReport e data endMark) = true) :
    segmentAt source (segmentPayload ch seq endMark total data) s = takeSegment i e data endMark s := by
  rw [segmentAt_good_open hch hseq htotal hgood hopen he, if_pos hnext, if_pos hroom]

theorem segmentAt_expected_noRoom (hgood : GoodSegment ch total data) (hopen : entryOf s source ch = some i)
    (he : recvAt s i = some e) (hnext : seq = e.expected ∧ total = e.total ∧ e.received + data.length ≤ e.total)
    (hroom : roomFor s (segmentReport e data endMark) = false) :
    segmentAt source (segmentPayload ch seq endMark total data) s = (s, none) := by
  rw [segmentAt_good_open hch hseq htotal hgood hopen he, if_pos hnext, hroom]
  rfl

/-- R159's third row: a segment of sequence 0 restarts an entry that expects another. -/
theorem segmentAt_restart (hgood : GoodSegment ch total data) (hopen : entryOf s source ch = some i)
    (he : recvAt s i = some e) (hzero : seq = 0) (hother : e.expected ≠ 0) :
    segmentAt source (segmentPayload ch seq endMark total data) s =
      let seg := segmentReport (freshRecv source ch total) data endMark
      if total < data.length then (closeRecv i .restarted s, some (.declined .sequence))
      else if roomFor s seg then openSegment source ch total data endMark (closeRestarted i e seg s)
      else (s, none) := by
  rw [segmentAt_good_open hch hseq htotal hgood hopen he, if_neg, if_pos ⟨hzero, hother⟩]
  exact fun hnext => hother (hnext.1.symm.trans hzero)

theorem segmentAt_restart_long (hgood : GoodSegment ch total data) (hopen : entryOf s source ch = some i)
    (he : recvAt s i = some e) (hzero : seq = 0) (hother : e.expected ≠ 0) (hlong : total < data.length) :
    segmentAt source (segmentPayload ch seq endMark total data) s =
      (closeRecv i .restarted s, some (.declined .sequence)) := by
  rw [segmentAt_restart hch hseq htotal hgood hopen he hzero hother]
  exact if_pos hlong

theorem segmentAt_restart_noRoom (hgood : GoodSegment ch total data) (hopen : entryOf s source ch = some i)
    (he : recvAt s i = some e) (hzero : seq = 0) (hother : e.expected ≠ 0) (hfits : data.length ≤ total)
    (hroom : roomFor s (segmentReport (freshRecv source ch total) data endMark) = false) :
    segmentAt source (segmentPayload ch seq endMark total data) s = (s, none) := by
  rw [segmentAt_restart hch hseq htotal hgood hopen he hzero hother]
  simp [hfits.not_gt, hroom]

/-- The room is tested before the entry closes, so that the entry opened anew takes the segment. -/
theorem segmentAt_restart_room (hgood : GoodSegment ch total data) (hopen : entryOf s source ch = some i)
    (he : recvAt s i = some e) (hzero : seq = 0) (hother : e.expected ≠ 0) (hfits : data.length ≤ total)
    (hroom : reportSize (segmentReport (freshRecv source ch total) data endMark) ≤ reportFree s) {j : Nat}
    (hfree : freeEntry (closeRestarted i e (segmentReport (freshRecv source ch total) data endMark) s) = some j) :
    segmentAt source (segmentPayload ch seq endMark total data) s =
      takeSegment j (freshRecv source ch total) data endMark
        (closeRestarted i e (segmentReport (freshRecv source ch total) data endMark) s) := by
  rw [segmentAt_restart hch hseq htotal hgood hopen he hzero hother]
  dsimp only
  rw [if_neg hfits.not_gt, if_pos (roomFor_of_le hroom),
    openSegment_room hfits hfree (roomFor_closeRestarted he hroom)]

/-- R159's fourth row: any other segment of the stream closes the entry. -/
theorem segmentAt_other (hknown : ch = 1 ∨ ch = 2) (hopen : entryOf s source ch = some i)
    (he : recvAt s i = some e) (hrow : seq ≠ 0 ∨ e.expected = 0)
    (hother : ¬ (seq = e.expected ∧ total = e.total ∧ e.received + data.length ≤ e.total)) :
    segmentAt source (segmentPayload ch seq endMark total data) s =
      (closeRecv i .sequence s, some (.declined .sequence)) := by
  by_cases hgood : GoodSegment ch total data
  · rw [segmentAt_good_open hch hseq htotal hgood hopen he, if_neg hother, if_neg]
    tauto
  · exact segmentAt_bad_open hch hseq htotal hgood hknown hopen

end

/-! ## A BULK ABORT (R161) -/

section
variable {s : State} {source ch i : Nat} {e : ReceiveEntry}

theorem byteAt_channel (hch : ch < 256) (rest : List Byte) : byteAt (BitVec.ofNat 8 ch :: rest) 0 = ch := by
  simp [byteAt, Nat.mod_eq_of_lt hch]

theorem abortAt_closed (hch : ch < 256) (rest : List Byte) (hnone : entryOf s source ch = none) :
    abortAt source (BitVec.ofNat 8 ch :: rest) s = (s, some (.accepted [])) := by
  simp [abortAt, byteAt_channel hch, hnone]

theorem abortAt_open (hch : ch < 256) (rest : List Byte) (hopen : entryOf s source ch = some i)
    (he : recvAt s i = some e) :
    abortAt source (BitVec.ofNat 8 ch :: rest) s =
      (queueEvent (.bulkAborted e.source e.channel e.received) (setRecv i none s), some (.accepted [])) := by
  simp [abortAt, byteAt_channel hch, hopen, he]

end

/-- Settles O16: each row of R159's table by the entry of the stream and the room for the report. -/
theorem segmentsAtTheirDestination : Obligations.SegmentsAtTheirDestination := by
  refine ⟨?segment, ?abort⟩
  case segment =>
    intro s source ch seq endMark total data hlength hch hseq htotal p ofStream report closed entry taken good
    refine ⟨fun hbad hnone => ?bad, fun hgood hnone => ⟨fun hlate => ?late, fun hzero hlong => ?long,
      fun hzero hfits hfull => ?full, fun i hi hzero hfits hfree hlowest => ⟨fun hroom => ?fresh,
        fun hroom => ?freshWaits⟩⟩, fun i hi e he hstream hlowest hknown => ?found⟩
    case bad => exact segmentAt_bad_closed hch hseq htotal hbad fun _ => entryOf_none hnone
    case late => rw [segmentAt_good_closed hch hseq htotal hgood (entryOf_none hnone), if_neg hlate]
    case long =>
      rw [segmentAt_good_closed hch hseq htotal hgood (entryOf_none hnone), if_pos hzero, openSegment_long hlong]
    case full =>
      rw [segmentAt_good_closed hch hseq htotal hgood (entryOf_none hnone), if_pos hzero,
        openSegment_busy hfits (freeEntry_none hlength hfull)]
    case fresh =>
      subst hzero
      rw [segmentAt_good_closed hch hseq htotal hgood (entryOf_none hnone), if_pos rfl,
        openSegment_room hfits (freeEntry_some hi hfree hlowest) (roomFor_of_le hroom), takeSegment_eq]
      rfl
    case freshWaits =>
      subst hzero
      rw [segmentAt_good_closed hch hseq htotal hgood (entryOf_none hnone), if_pos rfl,
        openSegment_noRoom hfits (freeEntry_some hi hfree hlowest) (roomFor_of_lt hroom)]
    case found =>
      have hopen : entryOf s source ch = some i := entryOf_some hi he hstream hlowest
      refine ⟨fun hgood hnext hsame hfits => ?expected, fun hrow => ?closes, fun hgood hzero hother =>
        ⟨fun hfits hroom => ?restartWaits, fun hlong => ?restartLong, fun hfits hroom j hj hlowest hfree => ?restart⟩⟩
      case expected =>
        obtain ⟨rfl, rfl⟩ := hstream
        subst hnext hsame
        refine ⟨fun hroom => ?_, fun hroom => ?_⟩
        · rw [segmentAt_expected hch hseq htotal hgood hopen he ⟨rfl, rfl, hfits⟩ (roomFor_of_le hroom),
            takeSegment_eq]
          rfl
        · exact segmentAt_expected_noRoom hch hseq htotal hgood hopen he ⟨rfl, rfl, hfits⟩ (roomFor_of_lt hroom)
      case closes =>
        rcases hrow with hbad | ⟨hrow, hother⟩
        · rw [segmentAt_bad_open hch hseq htotal hbad hknown hopen, closeRecv_open he]
          rfl
        · rw [segmentAt_other hch hseq htotal hknown hopen he hrow (by omega), closeRecv_open he]
          rfl
      case restartWaits =>
        subst hzero
        exact segmentAt_restart_noRoom hch hseq htotal hgood hopen he rfl hother hfits (roomFor_of_lt hroom)
      case restartLong =>
        rw [segmentAt_restart_long hch hseq htotal hgood hopen he hzero hother hlong, closeRecv_open he]
        rfl
      case restart =>
        intro failed
        subst hzero
        have hclosed := freeEntry_closed
          (closeRestarted_recv he (segmentReport (freshRecv source ch total) data endMark)) hi hj hlowest hfree
        have htaken := segmentAt_restart_room hch hseq htotal hgood hopen he rfl hother hfits hroom hclosed
        rw [takeSegment_eq, idleLimitMicros_closeRestarted] at htaken
        refine ⟨fun hboth => ?_, fun hshort => ?_⟩
        · rw [closeRestarted_room (seg := segmentReport (freshRecv source ch total) data endMark) hboth,
            closeRecv_open he] at htaken
          exact htaken
        · rw [closeRestarted_noRoom (seg := segmentReport (freshRecv source ch total) data endMark) hshort] at htaken
          exact htaken
  case abort =>
    intro s source ch rest hlength hch
    refine ⟨fun hnone => abortAt_closed hch rest (entryOf_none hnone), fun i hi e he hsource hchannel hlowest => ?_⟩
    exact abortAt_open hch rest (entryOf_some hi he ⟨hsource, hchannel⟩ hlowest) he

end Sys2Proof.Machine
end
